-- ==== Sys2Proof/Word.lean ====
section
/-! DEFINITION. The name for a 64-bit word that is only stored or handed over (00_scope R5, R6, R7). Where bits are
computed with, the width is written out, `BitVec 64` or `BitVec 8`, so that lemmas about bit vectors match as they stand. -/

namespace Sys2Proof

/-- One unsigned 64-bit value (R5: WORD_W, ACC_W, TABLE_W, and AW, LW of R6). -/
abbrev Word := BitVec 64

end Sys2Proof
end

