-- ==== Sys2Proof/Config.lean ====
section
/-! DEFINITION. What the platform fixes (00_scope R6, 10_state R39) and the free values (10_state R35, R41; the bytes of the
buffer address space that nothing has written, 20_memory R60). -/

namespace Sys2Proof

/-- The two admitted values of the parameter BYTE_ORDER (R6, R62). -/
inductive ByteOrder where
  /-- little-endian: lane `k` of a word is its byte `b_k` -/
  | le
  /-- big-endian: lane `k` of a word is its byte `b_(7-k)` -/
  | be
  deriving DecidableEq, Repr

/-- The default the spec takes for BYTE_ORDER (R6, D1). DESIGN CHOICE of the spec itself: log 1. -/
def Config.defaultByteOrder : ByteOrder := .le

/-- A stretch of buffer addresses, `first` to `last`, both of them in it. The platform's set Readable is a list of these
(R39, R67). The bounds are AW-bit addresses, so that no number at or above `2^AW` lies in one (R68). -/
structure AddressRange where
  /-- the lowest address -/
  first : BitVec 64
  /-- the highest address -/
  last : BitVec 64
  deriving DecidableEq, Repr

/-- The set Readable the model starts with: the whole address space. The spec has no default, 'supplied per launch'
(92_eei_decisions): DESIGN CHOICE, log 25. -/
def Config.defaultReadable : List AddressRange :=
  [{ first := 0#64, last := 0xFFFFFFFFFFFFFFFF#64 }]

/-- The first natural number that is no buffer address, `2^AW` with AW = 64 (R6, R68): log 14. -/
def Config.addressLimit : Nat := 2 ^ 64

/-- Which unspecified register a free value stands for. -/
inductive FreeSlot where
  /-- BASE before the host wrote it since reset (R41) -/
  | base
  /-- LEN before the host wrote it since reset (R41) -/
  | len
  /-- RESULT read while STATE is not DONE (R35) -/
  | result
  deriving DecidableEq, Repr

/-- The free values: the `n`-th draw, made for the register `slot`. It has no body, so nothing can be proved of its
value: 'a model must treat as any 64-bit value' (R35), 'an arbitrary value' (R41). Log 3 and log 4. -/
opaque Config.freeWord (n : Nat) (slot : FreeSlot) : Word

/-- The free values of memory: the byte at an address that the host has put no byte at. It has no body, so nothing can
be proved of its value; the spec says only that each address holds a byte (R60). Log 5. -/
opaque Config.initialByte (a : Nat) : BitVec 8

end Sys2Proof
end

