-- ==== Sys2Proof/Syntax.lean ====
section
/-! DEFINITION. The 17 micro-operations and the host command START: one constructor per row of spec/opcode_table.json.
None has an operand field (30_encoding R86, R89, R91). -/

namespace Sys2Proof

/-- The micro-operations of the schedule (R90), in the order of their codes, and the host command START (R91). -/
inductive Instr where
  /-- fail unless LEN is a multiple of 8 (R106) -/
  | chklen
  /-- build the mask table (R125) -/
  | tblgen
  /-- is a word left? (R108) -/
  | tstw
  /-- load word W into X (R135) -/
  | ldw
  /-- isolate the eight sign bits (R140) -/
  | sgnx
  /-- first fold step (R142) -/
  | fold33
  /-- second fold step (R144) -/
  | fold18
  /-- third fold step (R146) -/
  | fold12
  /-- take the index (R149) -/
  | idxm
  /-- read the mask (R152) -/
  | lut
  /-- zero the lanes that do not qualify (R154) -/
  | msk
  /-- lanes to 16-bit sums (R165) -/
  | hs8
  /-- 16-bit sums to 32-bit sums (R168) -/
  | hs16
  /-- 32-bit sums to the word's total (R171) -/
  | hs32
  /-- add the total to the accumulator (R176) -/
  | accum
  /-- next word (R111) -/
  | incw
  /-- publish the result (R113) -/
  | fin
  /-- the host command: begin a call (R105) -/
  | start
  deriving DecidableEq, Repr

/-- An encoded operation. The two formats live in two different registers and never meet: a 5-bit code in PHASE
(R89, format phase5 of the table) and the 1-bit value the host writes to CTRL (R91, format host_ctrl1). -/
inductive Code where
  /-- a value of PHASE -/
  | phase (c : BitVec 5)
  /-- a value the host writes to CTRL -/
  | ctrl (v : BitVec 1)
  deriving DecidableEq, Repr

end Sys2Proof
end

