-- ==== Sys2Proof/WellFormed.lean ====
section
/-! DEFINITION. Which encoded operations name an operation. An `Instr` has no operand field (30_encoding R89, R91), so
no term of it is ill-formed; the checks fall on the codes (R90, R92, R33). -/

namespace Sys2Proof

/-- The code 0 is NONE and names no micro-operation (R90). -/
def Code.namesSomething : Code → Bool
  | .phase c => c != 0#5
  | .ctrl v => v != 0#1

/-- The PHASE codes 18 to 31 are reserved (R92). -/
def Code.notReserved : Code → Bool
  | .phase c => decide (c.toNat ≤ 17)
  | .ctrl _ => true

/-- A code that names an operation: PHASE 1 to 17 (R90) or CTRL 1 (R91). -/
def Code.wellFormed (c : Code) : Bool :=
  c.namesSomething && c.notReserved

/-- Every operation is well-formed as syntax: none has a field that could be wrong (R89, R91). The match names each
constructor, so that one with operands could not slip past. -/
def Instr.wellFormed : Instr → Bool
  | .chklen | .tblgen | .tstw | .ldw | .sgnx | .fold33 | .fold18 | .fold12 | .idxm | .lut | .msk | .hs8 | .hs16
  | .hs32 | .accum | .incw | .fin | .start => true

end Sys2Proof
end

