-- ==== Sys2Proof/Decode.lean ====
section
/-! DEFINITION. The decoder of PHASE codes and CTRL values (30_encoding R90, R91, R92), and after it the encoder. -/

namespace Sys2Proof

/-- Why a code names no operation. -/
inductive DecodeError where
  /-- PHASE = 0: NONE, no micro-operation (R90) -/
  | noMicroOp
  /-- PHASE = 18 to 31: reserved (R92) -/
  | reservedPhase (c : BitVec 5)
  /-- CTRL = 0: 'Writing 0 has no effect' (R33), no command -/
  | noCommand
  deriving DecidableEq, Repr

/-- The micro-operation a PHASE code names (R90). -/
def decodePhase (c : BitVec 5) : Except DecodeError Instr :=
  match c.toNat with
  | 0 => .error .noMicroOp
  | 1 => .ok .chklen
  | 2 => .ok .tblgen
  | 3 => .ok .tstw
  | 4 => .ok .ldw
  | 5 => .ok .sgnx
  | 6 => .ok .fold33
  | 7 => .ok .fold18
  | 8 => .ok .fold12
  | 9 => .ok .idxm
  | 10 => .ok .lut
  | 11 => .ok .msk
  | 12 => .ok .hs8
  | 13 => .ok .hs16
  | 14 => .ok .hs32
  | 15 => .ok .accum
  | 16 => .ok .incw
  | 17 => .ok .fin
  | _ => .error (.reservedPhase c)

/-- The command a value written to CTRL gives: bit 0 is START (R33, R91). -/
def decodeCtrl (v : BitVec 1) : Except DecodeError Instr :=
  if v = 1#1 then .ok .start else .error .noCommand

/-- The decoder, total on every code of either format. -/
def decode : Code → Except DecodeError Instr
  | .phase c => decodePhase c
  | .ctrl v => decodeCtrl v

/-- PHASE = NONE: the unit performs no micro-operation (R28, R90). -/
def Phase.none : BitVec 5 := 0b00000#5
/-- R90, the binary column, row by row. -/
def Phase.chklen : BitVec 5 := 0b00001#5
@[inherit_doc Phase.chklen] def Phase.tblgen : BitVec 5 := 0b00010#5
@[inherit_doc Phase.chklen] def Phase.tstw : BitVec 5 := 0b00011#5
@[inherit_doc Phase.chklen] def Phase.ldw : BitVec 5 := 0b00100#5
@[inherit_doc Phase.chklen] def Phase.sgnx : BitVec 5 := 0b00101#5
@[inherit_doc Phase.chklen] def Phase.fold33 : BitVec 5 := 0b00110#5
@[inherit_doc Phase.chklen] def Phase.fold18 : BitVec 5 := 0b00111#5
@[inherit_doc Phase.chklen] def Phase.fold12 : BitVec 5 := 0b01000#5
@[inherit_doc Phase.chklen] def Phase.idxm : BitVec 5 := 0b01001#5
@[inherit_doc Phase.chklen] def Phase.lut : BitVec 5 := 0b01010#5
@[inherit_doc Phase.chklen] def Phase.msk : BitVec 5 := 0b01011#5
@[inherit_doc Phase.chklen] def Phase.hs8 : BitVec 5 := 0b01100#5
@[inherit_doc Phase.chklen] def Phase.hs16 : BitVec 5 := 0b01101#5
@[inherit_doc Phase.chklen] def Phase.hs32 : BitVec 5 := 0b01110#5
@[inherit_doc Phase.chklen] def Phase.accum : BitVec 5 := 0b01111#5
@[inherit_doc Phase.chklen] def Phase.incw : BitVec 5 := 0b10000#5
@[inherit_doc Phase.chklen] def Phase.fin : BitVec 5 := 0b10001#5

/-- The encoder: the code of an operation, in the format its row of the table gives it (R90, R91). -/
def encode : Instr → Code
  | .chklen => .phase Phase.chklen
  | .tblgen => .phase Phase.tblgen
  | .tstw => .phase Phase.tstw
  | .ldw => .phase Phase.ldw
  | .sgnx => .phase Phase.sgnx
  | .fold33 => .phase Phase.fold33
  | .fold18 => .phase Phase.fold18
  | .fold12 => .phase Phase.fold12
  | .idxm => .phase Phase.idxm
  | .lut => .phase Phase.lut
  | .msk => .phase Phase.msk
  | .hs8 => .phase Phase.hs8
  | .hs16 => .phase Phase.hs16
  | .hs32 => .phase Phase.hs32
  | .accum => .phase Phase.accum
  | .incw => .phase Phase.incw
  | .fin => .phase Phase.fin
  | .start => .ctrl 1#1

/-- The code that a word of the opcode table stands for: `nbits` = 1 is a CTRL value (format host_ctrl1), any other
width is a PHASE code (format phase5); a word with a bit above the register's width is no code. In whole bytes both
formats fill one byte and word 1 is both CHKLEN and START; it is then read as a PHASE code: log 15. -/
def codeOfTableWord (nbits w : Nat) : Option Code :=
  if nbits = 1 then
    if w < 2 then some (.ctrl (BitVec.ofNat 1 w)) else none
  else if w < 32 then some (.phase (BitVec.ofNat 5 w)) else none

/-- What the decoder reads from a word of the opcode table. -/
def decodeTableWord (nbits w : Nat) : Option Instr :=
  match codeOfTableWord nbits w with
  | some c => (decode c).toOption
  | none => none

end Sys2Proof
end

