-- ==== Sys2Proof/Machine/State.lean ====
section
/-! DEFINITION. The state of the unit (10_state R20), of the buffer address space it reads (20_memory R60, R67), and the
inputs from the host and the platform (40_control R114, 70 R220), as plain data; the reasons a step can stop; reset. -/

namespace Sys2Proof.Machine

/-- STATUS.STATE (R34). -/
inductive CallState where
  /-- 0: no call since reset -/
  | idle
  /-- 1: a call is in progress -/
  | busy
  /-- 2: the last call succeeded; RESULT is valid -/
  | done
  /-- 3: the last call failed its precondition check; ERR says why -/
  | fail
  deriving DecidableEq, Repr

/-- What the host and the platform can do to the unit between two steps: the host's whole command set (R114), putting a
byte of the buffer in place (R224 step 1), and the platform's reset (R220). -/
inductive HostMove where
  /-- nothing from outside: the unit has its turn (log 9) -/
  | pass
  /-- write BASE (R31) -/
  | writeBase (v : Word)
  /-- write LEN (R32) -/
  | writeLen (v : Word)
  /-- write CTRL; 1 is START (R33, R91) -/
  | writeCtrl (v : BitVec 1)
  /-- read STATUS (R34) -/
  | readStatus
  /-- read RESULT (R35) -/
  | readResult
  /-- read BASE (R31) -/
  | readBase
  /-- read LEN (R32) -/
  | readLen
  /-- read CTRL (R33) -/
  | readCtrl
  /-- put a byte into the buffer address space (R224 step 1); whether the unit may read it is the platform's (R209) -/
  | putByte (addr : Word) (v : BitVec 8)
  /-- the platform's reset (R220, R221) -/
  | reset
  deriving DecidableEq, Repr

/-- What a read by the host returned. -/
inductive HostReply where
  /-- STATUS, as the byte the host sees (R34) -/
  | status (v : BitVec 8)
  /-- RESULT (R35) -/
  | result (v : Word)
  /-- BASE (R31) -/
  | base (v : Word)
  /-- LEN (R32) -/
  | len (v : Word)
  /-- CTRL, always 0 (R33) -/
  | ctrl (v : BitVec 1)
  deriving DecidableEq, Repr

/-- The contents of the buffer address space (R60): the addresses the host has put a byte at, each with its byte,
addresses strictly rising. An address that is not listed holds a byte too, which is a free value: log 5. Which addresses the
unit may read is another matter, `State.readable`. -/
abbrev Memory := List Host.Cell

/-- Everything the spec gives the machine (R20), then the fields that are the model's own. -/
structure State where
  /-- X: the current word, after MSK the masked word (R21) -/
  x : BitVec 64
  /-- B: the sign bits, through the fold (R22) -/
  b : BitVec 64
  /-- IDX: the table index (R23) -/
  idx : BitVec 8
  /-- M: the table entry read for the current word (R24) -/
  m : BitVec 64
  /-- S: the working value of the horizontal reduction (R25) -/
  s : BitVec 64
  /-- ACC: the accumulator (R26) -/
  acc : BitVec 64
  /-- W: the index of the word being processed (R27) -/
  w : BitVec 61
  /-- PHASE: the code of the micro-operation the unit performs next, 0 for none (R28) -/
  phase : BitVec 5
  /-- TABLE[0..255]: the mask table (R30) -/
  table : Vector (BitVec 64) 256
  /-- BASE: the address of buffer element 0 (R31) -/
  base : BitVec 64
  /-- LEN: the buffer length in bytes (R32) -/
  len : BitVec 64
  /-- STATUS.STATE, bits 1:0 of STATUS (R34) -/
  state : CallState
  /-- STATUS.ERR, bits 7:4 of STATUS (R34) -/
  err : BitVec 4
  /-- RESULT: the output of the last successful call (R35) -/
  result : BitVec 64
  /-- the contents of the buffer address space (R60) -/
  mem : Memory
  /-- Readable: the addresses the platform lets the unit read, a parameter, which no step writes (R39, R67, R209): log 25 -/
  readable : List AddressRange
  /-- BYTE_ORDER: a parameter of the unit, which no step writes (R62): log 1 -/
  byteOrder : ByteOrder
  /-- the model's own: BASE has a value, written by the host since reset or drawn (R41): log 3 -/
  baseSet : Bool
  /-- the model's own: LEN has a value, written by the host since reset or drawn (R41): log 3 -/
  lenSet : Bool
  /-- the model's own: the moves of the host and the platform that are still to come, the next one first: log 9 -/
  hostMoves : List HostMove
  /-- the model's own: what the host's reads returned, the oldest first: log 9 -/
  hostReplies : List HostReply
  /-- the model's own: how many free values have been drawn: log 4 -/
  draws : Nat
  deriving DecidableEq, Repr

/-- Why the unit has no step. -/
inductive Fault where
  /-- raised by LDW: a byte of its word is not readable, `address` being the first such one (R67, R68). The spec's stuck
  state, with STATE = BUSY and PHASE = LDW for ever. Safe: nothing can be proved of a completed call (log 6). -/
  | unreadable (address : Nat)
  /-- raised by fetching: PHASE holds a reserved code (R92). The spec's stuck state, which no run reaches. Safe (log 7). -/
  | reservedPhase (code : BitVec 5)
  deriving DecidableEq, Repr

/-- Why the model gives a step no meaning. -/
inductive Refusal where
  /-- raised by an arm of `exec` that has no meaning yet; no arm raises it. Safe. -/
  | notModelled (mnemonic : String)
  /-- raised by the host's move `putByte` at an address of the buffer while STATE = BUSY: 'the model refuses such a run'
  (R71). Safe (log 10). -/
  | bufferWrittenDuringCall (address : BitVec 64)
  deriving DecidableEq, Repr

/-- The machine right after reset (R40, R220): STATUS = 0x00, PHASE = NONE; no byte put in place (log 5); the parameters
BYTE_ORDER and Readable at the values the model starts with (log 1, log 25); every register the spec leaves unspecified at 0
(DESIGN CHOICE, log 2), with BASE and LEN marked as holding no value yet (log 3). -/
def State.reset : State where
  x := 0#64
  b := 0#64
  idx := 0#8
  m := 0#64
  s := 0#64
  acc := 0#64
  w := 0#61
  phase := Phase.none
  table := Vector.replicate 256 0#64
  base := 0#64
  len := 0#64
  state := .idle
  err := 0#4
  result := 0#64
  mem := []
  readable := Config.defaultReadable
  byteOrder := Config.defaultByteOrder
  baseSet := false
  lenSet := false
  hostMoves := []
  hostReplies := []
  draws := 0

end Sys2Proof.Machine
end

