-- ==== Sys2Proof/Machine/Flags.lean ====
section
/-! DEFINITION. The unit has no flags (10_state R29); the only status bits are the STATE and ERR fields of STATUS (R34),
whose byte, as the host reads it, is computed here. -/

namespace Sys2Proof.Machine

/-- The code of STATUS.STATE (R34). -/
def CallState.code : CallState → BitVec 2
  | .idle => 0#2
  | .busy => 1#2
  | .done => 2#2
  | .fail => 3#2

/-- STATUS as the host reads it: ERR in bits 7:4, the reserved bits 3:2 as 0, STATE in bits 1:0 (R34). -/
def State.statusByte (st : State) : BitVec 8 :=
  st.err ++ 0#2 ++ st.state.code

end Sys2Proof.Machine
end

