-- ==== Sys2Proof/Machine/Operands.lean ====
section
/-! DEFINITION. Lanes, the permutation P, the table function, word assembly, the effective address: what the
micro-operations read and compute with (00_scope R8, 41_table, 20_memory R62, 42_load R136, 44_reduce). -/

namespace Sys2Proof.Machine

/-- Lane `k` of a word: `x[8k+7:8k]` (R8). -/
def lane (x : BitVec 64) (k : Nat) : BitVec 8 :=
  x.extractLsb' (8 * k) 8

/-- P: from an index bit number to the lane whose sign bit that index bit carries, as the list of R120 has it. -/
def laneOfIndexBit : Fin 8 → Fin 8
  | 0 => 7
  | 1 => 3
  | 2 => 5
  | 3 => 1
  | 4 => 6
  | 5 => 2
  | 6 => 4
  | 7 => 0

/-- The inverse of P: the index bit that carries lane `k`'s sign bit, as the second list of R82 has it. -/
def indexBitOfLane : Fin 8 → Fin 8
  | 0 => 7
  | 1 => 3
  | 2 => 5
  | 3 => 1
  | 4 => 6
  | 5 => 2
  | 6 => 4
  | 7 => 0

/-- Lane `k` of table entry `i`: 0xFF if bit P⁻¹(k) of `i` is 1, else 0x00 (R83, R122). -/
def maskLane (i : BitVec 8) (k : Fin 8) : BitVec 8 :=
  if i.getLsbD (indexBitOfLane k) then 0xFF#8 else 0x00#8

/-- TBL: the table entry for index `i` (R122). -/
def tbl (i : BitVec 8) : BitVec 64 :=
  maskLane i 7 ++ maskLane i 6 ++ maskLane i 5 ++ maskLane i 4 ++ maskLane i 3 ++ maskLane i 2 ++ maskLane i 1 ++
    maskLane i 0

/-- The whole table, entry `i` being TBL(i) (R30, R125). -/
def fullTable : Vector (BitVec 64) 256 :=
  ⟨((List.range 256).map fun i => tbl (BitVec.ofNat 8 i)).toArray, by simp⟩

/-- `TABLE[i]` (R10, R152). -/
def tableEntry (table : Vector (BitVec 64) 256) (i : BitVec 8) : BitVec 64 :=
  table.get i.toFin

/-- The word made of the bytes `b_0 .. b_7`, in the byte order given (R62). -/
def assembleWord (order : ByteOrder) (bytes : List (BitVec 8)) : BitVec 64 :=
  let b (t : Nat) : BitVec 8 := bytes.getD t 0#8
  match order with
  | .le => b 7 ++ b 6 ++ b 5 ++ b 4 ++ b 3 ++ b 2 ++ b 1 ++ b 0
  | .be => b 0 ++ b 1 ++ b 2 ++ b 3 ++ b 4 ++ b 5 ++ b 6 ++ b 7

/-- EA = BASE + 8 W, a natural number that is never wrapped (R68, R136). -/
def effectiveAddress (base : BitVec 64) (w : BitVec 61) : Nat :=
  base.toNat + 8 * w.toNat

/-- `LEN[63:3]`, that is LEN div 8, a 61-bit number (R108). -/
def wordCount (len : BitVec 64) : BitVec 61 :=
  len.extractLsb' 3 61

/-- `LEN[2:0]`, that is LEN mod 8 (R106). -/
def lengthRemainder (len : BitVec 64) : BitVec 3 :=
  len.extractLsb' 0 3

/-- One fold step: the in-place update `bits | (bits >> s)` (R142, R144, R146; 90_conflicts C1). -/
def foldStep (bits : BitVec 64) (s : Nat) : BitVec 64 :=
  bits ||| (bits >>> s)

/-- The eight isolated sign bits (R140). -/
def signBits (x : BitVec 64) : BitVec 64 :=
  x &&& 0x8080808080808080#64

/-- First reduction stage: mask, then shift, then add (R165). -/
def sumLanes (x : BitVec 64) : BitVec 64 :=
  ((x &&& 0xFF00FF00FF00FF00#64) >>> 8) + (x &&& 0x00FF00FF00FF00FF#64)

/-- Second reduction stage (R168). -/
def sumPairs (s : BitVec 64) : BitVec 64 :=
  ((s &&& 0xFFFF0000FFFF0000#64) >>> 16) + (s &&& 0x0000FFFF0000FFFF#64)

/-- Third reduction stage (R171). -/
def sumHalves (s : BitVec 64) : BitVec 64 :=
  (s >>> 32) + (s &&& 0x00000000FFFFFFFF#64)

end Sys2Proof.Machine
end

