-- ==== Sys2Proof/Machine/Ops.lean ====
section
/-! DEFINITION. The named operations over registers and memory: one update per register, the reading of the buffer
(20_memory R61), the beginning of a call (40_control R105), and taking the one exception (60 R203). -/

namespace Sys2Proof.Machine

/-! Register updates: one per register. -/

/-- X <- v (R21) -/
def State.setX (st : State) (v : BitVec 64) : State := { st with x := v }
/-- B <- v (R22) -/
def State.setB (st : State) (v : BitVec 64) : State := { st with b := v }
/-- IDX <- v (R23) -/
def State.setIdx (st : State) (v : BitVec 8) : State := { st with idx := v }
/-- M <- v (R24) -/
def State.setM (st : State) (v : BitVec 64) : State := { st with m := v }
/-- S <- v (R25) -/
def State.setS (st : State) (v : BitVec 64) : State := { st with s := v }
/-- ACC <- v (R26) -/
def State.setAcc (st : State) (v : BitVec 64) : State := { st with acc := v }
/-- W <- v (R27) -/
def State.setW (st : State) (v : BitVec 61) : State := { st with w := v }
/-- PHASE <- p (R28, R10) -/
def State.setPhase (st : State) (p : BitVec 5) : State := { st with phase := p }
/-- all of TABLE at once (R30, R125) -/
def State.setTable (st : State) (t : Vector (BitVec 64) 256) : State := { st with table := t }
/-- STATUS.STATE <- c (R34) -/
def State.setCallState (st : State) (c : CallState) : State := { st with state := c }
/-- STATUS.ERR <- e (R34) -/
def State.setErr (st : State) (e : BitVec 4) : State := { st with err := e }
/-- RESULT <- v (R35) -/
def State.setResult (st : State) (v : BitVec 64) : State := { st with result := v }
/-- BASE <- v, which then holds a value (R31, R41) -/
def State.setBase (st : State) (v : BitVec 64) : State := { st with base := v, baseSet := true }
/-- LEN <- v, which then holds a value (R32, R41) -/
def State.setLen (st : State) (v : BitVec 64) : State := { st with len := v, lenSet := true }
/-- the buffer address space (R60) -/
def State.setMem (st : State) (mem : Memory) : State := { st with mem := mem }
/-- the moves still to come (log 9) -/
def State.setHostMoves (st : State) (l : List HostMove) : State := { st with hostMoves := l }
/-- what a read of the host returned (log 9) -/
def State.pushReply (st : State) (r : HostReply) : State := { st with hostReplies := st.hostReplies ++ [r] }
/-- one more free value is used up (log 4) -/
def State.countDraw (st : State) : State := { st with draws := st.draws + 1 }

/-! Memory. -/

/-- The byte at address `a` (R60): the one the host put there, or else a free value (log 5). -/
def Memory.byteAt (mem : Memory) (a : Nat) : BitVec 8 :=
  (mem.lookup a).getD (Config.initialByte a)

/-- Write a byte, keeping the addresses strictly rising. -/
def Memory.put : Memory → Nat → BitVec 8 → Memory
  | [], a, v => [(a, v)]
  | (k, u) :: rest, a, v =>
    if a < k then (a, v) :: (k, u) :: rest
    else if a = k then (k, v) :: rest
    else (k, u) :: Memory.put rest a v

/-- The canonical form: every address is an address of the space, and the addresses rise strictly. No entry is known to
equal what its address would read as unlisted, that being a free value (log 5). -/
def Memory.wf : Memory → Bool
  | [] => true
  | (k, _) :: rest =>
    decide (k < Config.addressLimit) && rest.all (fun c => decide (k < c.1)) && Memory.wf rest

/-- The address is in the platform's set Readable (R67): in one of its stretches. -/
def State.isReadable (st : State) (a : Nat) : Bool :=
  st.readable.any fun r => decide (r.first.toNat ≤ a ∧ a ≤ r.last.toNat)

/-- `MemRead(addr, n)`: the `n` bytes from `addr` on, in address order, or the first address that is not readable
(R61, R67). It changes nothing. -/
def memRead (st : State) (addr : Nat) : Nat → Except Nat (List (BitVec 8))
  | 0 => .ok []
  | n + 1 =>
    if st.isReadable addr then
      match memRead st (addr + 1) n with
      | .error a => .error a
      | .ok bs => .ok (Memory.byteAt st.mem addr :: bs)
    else .error addr

/-- The address lies in the buffer, `BASE .. BASE + LEN - 1` (R60, R71). -/
def State.inBuffer (st : State) (a : Nat) : Bool :=
  decide (st.base.toNat ≤ a ∧ a < st.base.toNat + st.len.toNat)

/-! Registers that hold no value yet (R41): the value is drawn when it is first needed, and then kept. -/

/-- BASE with a value: itself, or a free value if nothing has written it since reset (R41; 93 U12): log 3. -/
def State.resolveBase (st : State) : State :=
  if st.baseSet then st else (st.setBase (Config.freeWord st.draws .base)).countDraw

/-- LEN with a value: itself, or a free value if nothing has written it since reset (R41; 93 U12): log 3. -/
def State.resolveLen (st : State) : State :=
  if st.lenSet then st else (st.setLen (Config.freeWord st.draws .len)).countDraw

/-! The call. -/

/-- The START transition of a unit that is not BUSY (R105). A BASE or LEN that nothing has written since reset gets its
free value here: 'a START in that condition runs on drawn values' (93 U12; R226): log 3. -/
def State.beginCall (st : State) : State :=
  (((((st.resolveBase.resolveLen.setAcc 0#64).setW 0#61).setErr 0#4).setCallState .busy).setPhase Phase.chklen)

/-- Taking the exception PreconditionViolation: ERR <- 1, STATE <- FAIL, PHASE <- NONE, and 'nothing else changes'
(R203). There is no return from it but the host's next START (R205), which is `State.beginCall`. -/
def State.takePreconditionViolation (st : State) : State :=
  ((st.setErr 1#4).setCallState .fail).setPhase Phase.none

/-- The platform's reset, at any time (R220, R221): the registers as after reset; the buffer address space, the
parameters, the moves still to come and the replies already given are not the unit's registers and stay. -/
def State.applyReset (st : State) : State :=
  { State.reset with
    mem := st.mem
    readable := st.readable
    byteOrder := st.byteOrder
    hostMoves := st.hostMoves
    hostReplies := st.hostReplies
    draws := st.draws }

end Sys2Proof.Machine
end

