-- ==== Sys2Proof/Machine/Control.lean ====
section
/-! DEFINITION. START, CHKLEN, TSTW, INCW, FIN (40_control). -/

namespace Sys2Proof.Machine

/-- START begins a call; 'START in BUSY does nothing' (R105). -/
def execStart (st : State) : Host.Outcome State Fault Refusal :=
  if st.state = .busy then .next st else .next st.beginCall

/-- CHKLEN checks the precondition, and takes PreconditionViolation where it fails (R106, R203). -/
def execChklen (st : State) : Host.Outcome State Fault Refusal :=
  if lengthRemainder st.len ≠ 0#3 then .next st.takePreconditionViolation else .next (st.setPhase Phase.tblgen)

/-- TSTW decides whether a word remains (R108). -/
def execTstw (st : State) : Host.Outcome State Fault Refusal :=
  if st.w = wordCount st.len then .next (st.setPhase Phase.fin) else .next (st.setPhase Phase.ldw)

/-- INCW moves to the next word (R111). The add is 61 bits wide and wraps in no run (R27): log 20. -/
def execIncw (st : State) : Host.Outcome State Fault Refusal :=
  .next ((st.setW (st.w + 1#61)).setPhase Phase.tstw)

/-- FIN ends a successful call (R113). -/
def execFin (st : State) : Host.Outcome State Fault Refusal :=
  .next (((st.setResult st.acc).setCallState .done).setPhase Phase.none)

end Sys2Proof.Machine
end

