-- ==== Sys2Proof/Machine/Filter.lean ====
section
/-! DEFINITION. SGNX, FOLD33, FOLD18, FOLD12, IDXM, LUT, MSK (43_filter). -/

namespace Sys2Proof.Machine

/-- SGNX isolates the eight sign bits (R140). -/
def execSgnx (st : State) : Host.Outcome State Fault Refusal :=
  .next ((st.setB (signBits st.x)).setPhase Phase.fold33)

/-- FOLD33, the first fold step (R142). -/
def execFold33 (st : State) : Host.Outcome State Fault Refusal :=
  .next ((st.setB (foldStep st.b 33)).setPhase Phase.fold18)

/-- FOLD18, the second fold step (R144). -/
def execFold18 (st : State) : Host.Outcome State Fault Refusal :=
  .next ((st.setB (foldStep st.b 18)).setPhase Phase.fold12)

/-- FOLD12, the third fold step (R146). -/
def execFold12 (st : State) : Host.Outcome State Fault Refusal :=
  .next ((st.setB (foldStep st.b 12)).setPhase Phase.idxm)

/-- IDXM takes the index, `B[7:0]` (R149). -/
def execIdxm (st : State) : Host.Outcome State Fault Refusal :=
  .next ((st.setIdx (st.b.extractLsb' 0 8)).setPhase Phase.lut)

/-- LUT reads the mask (R152). -/
def execLut (st : State) : Host.Outcome State Fault Refusal :=
  .next ((st.setM (tableEntry st.table st.idx)).setPhase Phase.msk)

/-- MSK zeroes the lanes that do not qualify (R154). -/
def execMsk (st : State) : Host.Outcome State Fault Refusal :=
  .next ((st.setX (st.x &&& st.m)).setPhase Phase.hs8)

end Sys2Proof.Machine
end

