-- ==== Sys2Proof/Machine/Load.lean ====
section
/-! DEFINITION. LDW (42_load). -/

namespace Sys2Proof.Machine

/-- LDW loads word W of the buffer into X (R135). Where one of the eight addresses is not readable it has no step:
the fault names the first such address (R67, R68): log 6. -/
def execLdw (st : State) : Host.Outcome State Fault Refusal :=
  match memRead st (effectiveAddress st.base st.w) 8 with
  | .ok bytes => .next ((st.setX (assembleWord st.byteOrder bytes)).setPhase Phase.sgnx)
  | .error a => .fault (.unreadable a)

end Sys2Proof.Machine
end

