-- ==== Sys2Proof/Machine/Reduce.lean ====
section
/-! DEFINITION. HS8, HS16, HS32, ACCUM (44_reduce). -/

namespace Sys2Proof.Machine

/-- HS8 adds each odd lane to the even lane below it (R165). -/
def execHs8 (st : State) : Host.Outcome State Fault Refusal :=
  .next ((st.setS (sumLanes st.x)).setPhase Phase.hs16)

/-- HS16 adds each odd 16-bit field to the even one below it (R168). -/
def execHs16 (st : State) : Host.Outcome State Fault Refusal :=
  .next ((st.setS (sumPairs st.s)).setPhase Phase.hs32)

/-- HS32 adds the two 32-bit halves (R171). -/
def execHs32 (st : State) : Host.Outcome State Fault Refusal :=
  .next ((st.setS (sumHalves st.s)).setPhase Phase.accum)

/-- ACCUM adds the word's total to the accumulator, modulo 2^64 (R176, R178). -/
def execAccum (st : State) : Host.Outcome State Fault Refusal :=
  .next ((st.setAcc (st.acc + st.s)).setPhase Phase.incw)

end Sys2Proof.Machine
end

