-- ==== Sys2Proof/Machine/Table.lean ====
section
/-! DEFINITION. TBLGEN (41_table). -/

namespace Sys2Proof.Machine

/-- TBLGEN builds the table: all 256 writes belong to this one step (R125). -/
def execTblgen (st : State) : Host.Outcome State Fault Refusal :=
  .next ((st.setTable fullTable).setPhase Phase.tstw)

end Sys2Proof.Machine
end

