-- ==== Sys2Proof/Machine/Dispatch.lean ====
section
/-! DEFINITION. One arm per constructor of Instr, each one call of its meaning. -/

namespace Sys2Proof.Machine

def exec (i : Instr) (s : State) : Host.Outcome State Fault Refusal :=
  match i with
  | .chklen => Sys2Proof.Machine.execChklen s
  | .tblgen => Sys2Proof.Machine.execTblgen s
  | .tstw => Sys2Proof.Machine.execTstw s
  | .ldw => Sys2Proof.Machine.execLdw s
  | .sgnx => Sys2Proof.Machine.execSgnx s
  | .fold33 => Sys2Proof.Machine.execFold33 s
  | .fold18 => Sys2Proof.Machine.execFold18 s
  | .fold12 => Sys2Proof.Machine.execFold12 s
  | .idxm => Sys2Proof.Machine.execIdxm s
  | .lut => Sys2Proof.Machine.execLut s
  | .msk => Sys2Proof.Machine.execMsk s
  | .hs8 => Sys2Proof.Machine.execHs8 s
  | .hs16 => Sys2Proof.Machine.execHs16 s
  | .hs32 => Sys2Proof.Machine.execHs32 s
  | .accum => Sys2Proof.Machine.execAccum s
  | .incw => Sys2Proof.Machine.execIncw s
  | .fin => Sys2Proof.Machine.execFin s
  | .start => Sys2Proof.Machine.execStart s

end Sys2Proof.Machine
end

