-- ==== Sys2Proof/Machine/HostPort.lean ====
section
/-! DEFINITION. The five host registers as the host sees them (10_state R31 to R36, 40_control R114), the buffer as the
host fills it (70 R224, 20_memory R71), and the platform's reset (70 R220). -/

namespace Sys2Proof.Machine

/-- The host writes BASE: ignored while BUSY (R31, R36). -/
def hostWriteBase (v : Word) (st : State) : State :=
  if st.state = .busy then st else st.setBase v

/-- The host writes LEN: ignored while BUSY (R32, R36). -/
def hostWriteLen (v : Word) (st : State) : State :=
  if st.state = .busy then st else st.setLen v

/-- The host reads STATUS (R34). -/
def hostReadStatus (st : State) : State :=
  st.pushReply (.status st.statusByte)

/-- The host reads RESULT: its value while DONE, a free value otherwise (R35): log 4. -/
def hostReadResult (st : State) : State :=
  if st.state = .done then st.pushReply (.result st.result)
  else (st.pushReply (.result (Config.freeWord st.draws .result))).countDraw

/-- The host reads BASE; before the host wrote it since reset, an arbitrary value (R31, R41): log 3. -/
def hostReadBase (st : State) : State :=
  st.resolveBase.pushReply (.base st.resolveBase.base)

/-- The host reads LEN; before the host wrote it since reset, an arbitrary value (R32, R41): log 3. -/
def hostReadLen (st : State) : State :=
  st.resolveLen.pushReply (.len st.resolveLen.len)

/-- The host reads CTRL: always 0 (R33). -/
def hostReadCtrl (st : State) : State :=
  st.pushReply (.ctrl 0#1)

/-- The host puts a byte in place (R224 step 1); into the buffer of a call in progress it may not: 'the model refuses
such a run' (R71): log 10. It changes no address's being readable, which is the platform's (R209). -/
def hostPutByte (addr : Word) (v : BitVec 8) (st : State) : Host.Outcome State Fault Refusal :=
  if st.state = .busy ∧ st.inBuffer addr.toNat then .refused (.bufferWrittenDuringCall addr)
  else .next (st.setMem (Memory.put st.mem addr.toNat v))

/-- One move of the host or the platform other than giving the unit its turn or writing CTRL, which are fetched
(Machine/Fetch.lean). -/
def hostMove (mv : HostMove) (st : State) : Host.Outcome State Fault Refusal :=
  match mv with
  | .pass => .next st
  | .writeBase v => .next (hostWriteBase v st)
  | .writeLen v => .next (hostWriteLen v st)
  | .writeCtrl _ => .next st
  | .readStatus => .next (hostReadStatus st)
  | .readResult => .next (hostReadResult st)
  | .readBase => .next (hostReadBase st)
  | .readLen => .next (hostReadLen st)
  | .readCtrl => .next (hostReadCtrl st)
  | .putByte a v => hostPutByte a v st
  | .reset => .next st.applyReset

end Sys2Proof.Machine
end

