-- ==== Sys2Proof/Machine/Fetch.lean ====
section
/-! DEFINITION. What a step does next: which operation is fetched, and from where (40_control R107, R33; 30_encoding
R92). The unit fetches from PHASE, the host's command comes through CTRL. -/

namespace Sys2Proof.Machine

/-- What a step has found to do. -/
inductive Fetched where
  /-- perform this operation -/
  | run (i : Instr) (st : State)
  /-- a move of the host or the platform that is no operation of the table -/
  | move (mv : HostMove) (st : State)
  /-- nothing to do: 'When STATE is not BUSY the unit has no step of its own' (R107), PHASE NONE stays NONE (R104),
  CTRL 0 'has no effect' (R33): log 8 -/
  | wait (st : State)
  /-- no step -/
  | stop (f : Fault)

/-- The unit's turn: while BUSY, the micro-operation PHASE names (R107). -/
def fetchUnit (st : State) : Fetched :=
  if st.state = .busy then
    match decode (.phase st.phase) with
    | .ok i => .run i st
    | .error (.reservedPhase c) => .stop (.reservedPhase c)
    | .error .noMicroOp => .wait st
    | .error .noCommand => .wait st
  else .wait st

/-- The host writes CTRL (R33, R91). -/
def fetchCtrl (v : BitVec 1) (st : State) : Fetched :=
  match decode (.ctrl v) with
  | .ok i => .run i st
  | .error _ => .wait st

/-- The next move of the host or the platform comes first; with none left, or with `pass`, it is the unit's turn: log 9. -/
def fetch (st : State) : Fetched :=
  match st.hostMoves with
  | [] => fetchUnit st
  | .pass :: rest => fetchUnit (st.setHostMoves rest)
  | .writeCtrl v :: rest => fetchCtrl v (st.setHostMoves rest)
  | mv :: rest => .move mv (st.setHostMoves rest)

/-- Place a code where the next step fetches: a PHASE code in PHASE, of a unit that is BUSY and has its turn; a CTRL
value as the host's next move. -/
def State.placeCode (st : State) (c : Code) : State :=
  match c with
  | .phase p => ((st.setCallState .busy).setPhase p).setHostMoves (.pass :: st.hostMoves)
  | .ctrl v => st.setHostMoves (.writeCtrl v :: st.hostMoves)

end Sys2Proof.Machine
end

