-- ==== Sys2Proof/Machine/Step.lean ====
section
/-! DEFINITION. One step of the machine (40_control R107). -/

namespace Sys2Proof.Machine

/-- One step: the next move of the host or the platform, or else the unit's micro-operation (R107, R114). -/
def step (st : State) : Host.Outcome State Fault Refusal :=
  match fetch st with
  | .run i st' => exec i st'
  | .move mv st' => hostMove mv st'
  | .wait st' => .next st'
  | .stop f => .fault f

/-- `st` with the operation of a table word placed where the next step fetches it; a word that is no code changes
nothing. Log 15 and log 16. -/
def State.withFetchWord (st : State) (nbits w : Nat) : State :=
  match codeOfTableWord nbits w with
  | some c => st.placeCode c
  | none => st

end Sys2Proof.Machine
end

