-- ==== Sys2Proof/Safety.lean ====
section
/-! DEFINITION. The terms claims are stated in: the reference the unit is held to (45_reference R185), the buffer as a
list of bytes, and the invariants of a call (40_control R110, 10_state R34). -/

namespace Sys2Proof.Machine

/-- CM, the per-byte comparison-and-mask function: the byte if it is 128 or more, else 0 (R158). -/
def compareMask (v : BitVec 8) : BitVec 8 :=
  if 128 ≤ v.toNat then v else 0#8

/-- REF: the sum, over the positions of a buffer, of the values that are 128 or more (R185). -/
def reference (buf : List (BitVec 8)) : Nat :=
  (buf.map fun v => (compareMask v).toNat).sum

/-- Buffer element `i`, the byte at address `BASE + i` (R60), readable or not. -/
def State.bufferByte (st : State) (i : Nat) : BitVec 8 :=
  Memory.byteAt st.mem (st.base.toNat + i)

/-- The first `n` elements of the buffer. -/
def State.bufferPrefix (st : State) (n : Nat) : List (BitVec 8) :=
  (List.range n).map st.bufferByte

/-- Every address `BASE .. BASE + LEN - 1` is in Readable (R67, R103 b). -/
def State.bufferReadable (st : State) : Prop :=
  ∀ i, i < st.len.toNat → st.isReadable (st.base.toNat + i) = true

/-- Word `w` of the buffer as LDW assembles it (R62, R135). -/
def State.bufferWord (st : State) (w : Nat) : BitVec 64 :=
  assembleWord st.byteOrder ((List.range 8).map fun t => st.bufferByte (8 * w + t))

/-- The index the fold makes from a word: SGNX, FOLD33, FOLD18, FOLD12, IDXM in a row (R140 to R149). -/
def indexOfWord (x : BitVec 64) : BitVec 8 :=
  (foldStep (foldStep (foldStep (signBits x) 33) 18) 12).extractLsb' 0 8

/-- Every lane of `y` is CM of the same lane of `x` (R155, R157). -/
def lanesMasked (x y : BitVec 64) : Prop :=
  ∀ k, k < 8 → lane y k = compareMask (lane x k)

/-- What holds of the control state between any two steps: PHASE is a code of R90 that is not
reserved (R92); the unit is BUSY exactly while PHASE names a micro-operation (R104); ERR is nonzero exactly in FAIL and
is then 1 (R34); and in a call BASE and LEN hold values, the length check comes first (R106), and W is at most LEN div 8
(R27), less than it from LDW to INCW (R111). -/
structure State.Inv (st : State) : Prop where
  phaseLegal : st.phase.toNat ≤ 17
  busyIffPhase : st.state = .busy ↔ st.phase ≠ Phase.none
  errInFail : st.state = .fail → st.err = 1#4
  errElsewhere : st.state ≠ .fail → st.err = 0#4
  operandsSet : st.state = .busy → st.baseSet = true ∧ st.lenSet = true
  lengthChecked : st.state = .busy → st.phase ≠ Phase.chklen → st.len.toNat % 8 = 0
  wordBound : st.state = .busy → st.w.toNat ≤ st.len.toNat / 8
  wordLeft : st.state = .busy → 4 ≤ st.phase.toNat → st.phase.toNat ≤ 16 → st.w.toNat < st.len.toNat / 8

/-- The table is built (R30, R110). -/
def State.tableBuilt (st : State) : Prop :=
  ∀ i : BitVec 8, tableEntry st.table i = tbl i

/-- ACC is the sum of the qualifying bytes among the first `n` of the buffer, modulo 2^64 (R110). -/
def State.accIs (st : State) (n : Nat) : Prop :=
  st.acc = BitVec.ofNat 64 (reference (st.bufferPrefix n))

/-- How far a call has come, micro-operation by micro-operation: at TSTW the loop invariant of R110, and on the way to
the next TSTW what the schedule (R104) has computed of word W. -/
def State.progress (st : State) : Prop :=
  let n := 8 * st.w.toNat
  let word := st.bufferWord st.w.toNat
  match st.phase.toNat with
  | 1 => st.acc = 0#64 ∧ st.w = 0#61
  | 2 => st.acc = 0#64 ∧ st.w = 0#61
  | 3 => st.tableBuilt ∧ st.accIs n
  | 4 => st.tableBuilt ∧ st.accIs n
  | 5 => st.tableBuilt ∧ st.accIs n ∧ st.x = word
  | 6 => st.tableBuilt ∧ st.accIs n ∧ st.x = word ∧ st.b = signBits word
  | 7 => st.tableBuilt ∧ st.accIs n ∧ st.x = word ∧ st.b = foldStep (signBits word) 33
  | 8 => st.tableBuilt ∧ st.accIs n ∧ st.x = word ∧ st.b = foldStep (foldStep (signBits word) 33) 18
  | 9 => st.tableBuilt ∧ st.accIs n ∧ st.x = word ∧ st.b.extractLsb' 0 8 = indexOfWord word
  | 10 => st.tableBuilt ∧ st.accIs n ∧ st.x = word ∧ st.idx = indexOfWord word
  | 11 => st.tableBuilt ∧ st.accIs n ∧ st.x = word ∧ st.m = tbl (indexOfWord word)
  | 12 => st.tableBuilt ∧ st.accIs n ∧ lanesMasked word st.x
  | 13 => st.tableBuilt ∧ st.accIs n ∧ lanesMasked word st.x ∧ st.s = sumLanes st.x
  | 14 => st.tableBuilt ∧ st.accIs n ∧ lanesMasked word st.x ∧ st.s = sumPairs (sumLanes st.x)
  | 15 => st.tableBuilt ∧ st.accIs n ∧ st.s.toNat = reference ((List.range 8).map fun t => st.bufferByte (n + t))
  | 16 => st.tableBuilt ∧ st.accIs (n + 8)
  | 17 => st.tableBuilt ∧ st.accIs n ∧ st.w = wordCount st.len
  | _ => True

/-- The invariant of a call: the control invariant, and while BUSY the progress made (R110). -/
def State.CallInv (st : State) : Prop :=
  st.Inv ∧ (st.state = .busy → st.progress)

/-- What the host may see of a finished call, and all of it: STATUS.STATE, STATUS.ERR, and RESULT while DONE (R38, R63). -/
def State.outcome (st : State) : CallState × BitVec 4 × Option (BitVec 64) :=
  (st.state, st.err, if st.state = .done then some st.result else none)

/-- Perform these operations one after another, stopping at the first that does not go on: the macros FILTER, HSUM and
WORD of R94 are such lists. -/
def execAll : List Instr → State → Host.Outcome State Fault Refusal
  | [], st => .next st
  | i :: rest, st =>
    match exec i st with
    | .next t => execAll rest t
    | .fault f => .fault f
    | .refused r => .refused r

/-- The macro FILTER (R94). -/
def filterOps : List Instr :=
  [.sgnx, .fold33, .fold18, .fold12, .idxm, .lut, .msk]

/-- The macro HSUM (R94). -/
def hsumOps : List Instr :=
  [.hs8, .hs16, .hs32]

/-- `k` steps of the machine, stopping at the first fault or refusal. -/
def steps : Nat → State → Host.Outcome State Fault Refusal
  | 0, st => .next st
  | k + 1, st =>
    match step st with
    | .next t => steps k t
    | .fault f => .fault f
    | .refused r => .refused r

/-- A unit that is not BUSY, whose BASE and LEN the host has written, with one thing to come from outside: the host
writes CTRL.START (R224 step 5). -/
def State.aboutToStart (st : State) : Prop :=
  st.state ≠ .busy ∧ st.baseSet = true ∧ st.lenSet = true ∧ st.hostMoves = [.writeCtrl 1#1]

/-- The steps of a call whose length passes the check: START, then `4 + 14 (LEN div 8)` micro-operations (R109). -/
def State.callSteps (st : State) : Nat :=
  1 + (4 + 14 * (st.len.toNat / 8))

end Sys2Proof.Machine
end

