-- ==== Sys2Proof/Certificates/Slice0/Obligations.lean ====
section
/-! DEFINITION. The statements about the unit, each from the numbered rules of spec/ that its docstring names. Codes and
constants are written out as the spec has them, not through the model's names for them. -/

open Sys2Proof Sys2Proof.Machine

/-! Encodings (30_encoding). -/

/-- R90: the eighteen rows of the table of codes and the reserved range, read by the decoder; R91: the CTRL bit. -/
def Obligations.CodesDecodeAsTheTableSays : Prop :=
  decode (.phase 0b00001#5) = .ok .chklen ∧ decode (.phase 0b00010#5) = .ok .tblgen ∧
  decode (.phase 0b00011#5) = .ok .tstw ∧ decode (.phase 0b00100#5) = .ok .ldw ∧
  decode (.phase 0b00101#5) = .ok .sgnx ∧ decode (.phase 0b00110#5) = .ok .fold33 ∧
  decode (.phase 0b00111#5) = .ok .fold18 ∧ decode (.phase 0b01000#5) = .ok .fold12 ∧
  decode (.phase 0b01001#5) = .ok .idxm ∧ decode (.phase 0b01010#5) = .ok .lut ∧
  decode (.phase 0b01011#5) = .ok .msk ∧ decode (.phase 0b01100#5) = .ok .hs8 ∧
  decode (.phase 0b01101#5) = .ok .hs16 ∧ decode (.phase 0b01110#5) = .ok .hs32 ∧
  decode (.phase 0b01111#5) = .ok .accum ∧ decode (.phase 0b10000#5) = .ok .incw ∧
  decode (.phase 0b10001#5) = .ok .fin ∧ decode (.phase 0b00000#5) = .error .noMicroOp ∧
  (∀ c : BitVec 5, 18 ≤ c.toNat → decode (.phase c) = .error (.reservedPhase c)) ∧
  decode (.ctrl 1#1) = .ok .start ∧ decode (.ctrl 0#1) = .error .noCommand

/-- Decoding and encoding are inverse to one another: every operation has a code, and a code that names an operation
is that operation's code (R89, R90, R91). -/
def Obligations.DecodeAndEncodeAgree : Prop :=
  ∀ (i : Instr) (c : Code), decode c = .ok i ↔ encode i = c

/-! The call and the control micro-operations (40_control). -/

/-- R105, for a unit whose BASE and LEN hold values: START in IDLE, DONE or FAIL; START in BUSY. -/
def Obligations.StartBeginsACall : Prop :=
  encode .start = .ctrl 1#1 ∧
  ∀ st : State,
    (st.state ≠ .busy → st.baseSet = true → st.lenSet = true →
      exec .start st = .next { st with acc := 0#64, w := 0#61, err := 0#4, state := .busy, phase := 1#5 }) ∧
    (st.state = .busy → exec .start st = .next st)

/-- START of a unit whose BASE or LEN nothing has written since reset: it runs all the same, the register without a
value gets one, and nothing else differs (log 3, the model's choice; R40, R41, 93 U12). Nothing is said of the value. -/
def Obligations.StartWithoutOperandsRuns : Prop :=
  ∀ st : State, st.state ≠ .busy →
    ∃ t, exec .start st = .next t ∧
      t = { st with
        acc := 0#64, w := 0#61, err := 0#4, state := .busy, phase := 1#5
        base := t.base, baseSet := true, len := t.len, lenSet := true, draws := t.draws } ∧
      (st.baseSet = true → t.base = st.base) ∧ (st.lenSet = true → t.len = st.len)

/-- R106 with the entry of R203: CHKLEN passes exactly a multiple of 8, and otherwise takes PreconditionViolation,
which changes ERR, STATE and PHASE and nothing else. -/
def Obligations.ChklenChecksTheLength : Prop :=
  encode .chklen = .phase 1#5 ∧
  ∀ st : State, exec .chklen st =
    if st.len.toNat % 8 ≠ 0 then .next { st with err := 1#4, state := .fail, phase := 0#5 }
    else .next { st with phase := 2#5 }

/-- R108: TSTW goes to FIN when W = LEN div 8 and to LDW otherwise. -/
def Obligations.TstwDecidesWhetherAWordRemains : Prop :=
  encode .tstw = .phase 3#5 ∧
  ∀ st : State, exec .tstw st =
    if st.w.toNat = st.len.toNat / 8 then .next { st with phase := 17#5 } else .next { st with phase := 4#5 }

/-- R111: INCW adds 1 to W, without a wrap while a word remains, and changes nothing else but PHASE. -/
def Obligations.IncwMovesToTheNextWord : Prop :=
  encode .incw = .phase 16#5 ∧
  ∀ st : State, exec .incw st = .next { st with w := st.w + 1#61, phase := 3#5 } ∧
    (st.w.toNat < st.len.toNat / 8 → (st.w + 1#61).toNat = st.w.toNat + 1)

/-- R113: FIN publishes ACC as RESULT and ends the call; while DONE the unit's turn finds nothing to do, only the host's START or
the platform's reset (R220) ends DONE, and RESULT stays as it is for as long as STATE is DONE (20_memory R72). -/
def Obligations.FinPublishesTheResult : Prop :=
  encode .fin = .phase 17#5 ∧
  (∀ st : State, exec .fin st = .next { st with result := st.acc, state := .done, phase := 0#5 }) ∧
  (∀ st : State, st.state = .done → fetchUnit st = .wait st) ∧
  (∀ st t : State, st.state = .done → step st = .next t →
    (t.state = .done → t.result = st.result) ∧
    (t.state ≠ .done → ∃ rest, st.hostMoves = .writeCtrl 1#1 :: rest ∨ st.hostMoves = .reset :: rest))

/-- R104, the table of successors: what PHASE is after each micro-operation that goes on, after START, and while it is
NONE and nothing comes from outside. -/
def Obligations.ScheduleNamesEachSuccessor : Prop :=
  ∀ st t : State,
    (exec .chklen st = .next t → t.phase = if st.len.toNat % 8 = 0 then 2#5 else 0#5) ∧
    (exec .tblgen st = .next t → t.phase = 3#5) ∧
    (exec .tstw st = .next t → t.phase = if st.w = st.len.extractLsb' 3 61 then 17#5 else 4#5) ∧
    (exec .ldw st = .next t → t.phase = 5#5) ∧ (exec .sgnx st = .next t → t.phase = 6#5) ∧
    (exec .fold33 st = .next t → t.phase = 7#5) ∧ (exec .fold18 st = .next t → t.phase = 8#5) ∧
    (exec .fold12 st = .next t → t.phase = 9#5) ∧ (exec .idxm st = .next t → t.phase = 10#5) ∧
    (exec .lut st = .next t → t.phase = 11#5) ∧ (exec .msk st = .next t → t.phase = 12#5) ∧
    (exec .hs8 st = .next t → t.phase = 13#5) ∧ (exec .hs16 st = .next t → t.phase = 14#5) ∧
    (exec .hs32 st = .next t → t.phase = 15#5) ∧ (exec .accum st = .next t → t.phase = 16#5) ∧
    (exec .incw st = .next t → t.phase = 3#5) ∧ (exec .fin st = .next t → t.phase = 0#5) ∧
    (st.state ≠ .busy → exec .start st = .next t → t.phase = 1#5) ∧
    (st.hostMoves = [] → st.phase = 0#5 → step st = .next t → t.phase = 0#5)

/-! The table (41_table). -/

/-- R125: TBLGEN writes all 256 entries in one step, from no input. -/
def Obligations.TblgenBuildsTheTable : Prop :=
  encode .tblgen = .phase 2#5 ∧
  ∀ st : State, ∃ t, exec .tblgen st = .next t ∧ t = { st with table := t.table, phase := 3#5 } ∧
    ∀ i : BitVec 8, t.table.get i.toFin = tbl i

/-- R120 and R121: P is the list of the spec, it is `7 - rev3`, and it is its own inverse. -/
def Obligations.PermutationIsTheListedInvolution : Prop :=
  ((List.finRange 8).map fun j => (laneOfIndexBit j).val) = [7, 3, 5, 1, 6, 2, 4, 0] ∧
  (∀ j : Fin 8, (laneOfIndexBit j).val = 7 - (4 * (j.val % 2) + 2 * (j.val / 2 % 2) + j.val / 4)) ∧
  (∀ j : Fin 8, laneOfIndexBit (laneOfIndexBit j) = j) ∧ (∀ k : Fin 8, indexBitOfLane k = laneOfIndexBit k)

/-- R122: lane `k` of TBL(i) is 0xFF when bit P⁻¹(k) of `i` is 1, and 0x00 otherwise. -/
def Obligations.TableEntriesFollowThePermutation : Prop :=
  ∀ (i : BitVec 8) (j : Fin 8),
    lane (tbl i) (laneOfIndexBit j).val = if i.getLsbD j.val then 0xFF#8 else 0x00#8

/-- R123: (a) every lane is 0x00 or 0xFF; (b) the two ends; (c) TBL keeps OR and AND; (d) TBL is injective and has as many
0xFF lanes as the index has ones; (e) the eight single-bit entries. -/
def Obligations.TableHasTheListedProperties : Prop :=
  (∀ (i : BitVec 8) (k : Fin 8), lane (tbl i) k.val = 0x00#8 ∨ lane (tbl i) k.val = 0xFF#8) ∧
  (tbl 0x00#8 = 0x0000000000000000#64 ∧ tbl 0xFF#8 = 0xFFFFFFFFFFFFFFFF#64) ∧
  (∀ i j : BitVec 8, tbl (i ||| j) = tbl i ||| tbl j ∧ tbl (i &&& j) = tbl i &&& tbl j) ∧
  (∀ i j : BitVec 8, tbl i = tbl j → i = j) ∧
  (∀ i : BitVec 8, ((List.finRange 8).countP fun k => lane (tbl i) k.val == 0xFF#8) =
    ((List.finRange 8).countP fun j => i.getLsbD j.val)) ∧
  (tbl 0x01#8 = 0xFF00000000000000#64 ∧ tbl 0x02#8 = 0x00000000FF000000#64 ∧ tbl 0x04#8 = 0x0000FF0000000000#64 ∧
    tbl 0x08#8 = 0x000000000000FF00#64 ∧ tbl 0x10#8 = 0x00FF000000000000#64 ∧ tbl 0x20#8 = 0x0000000000FF0000#64 ∧
    tbl 0x40#8 = 0x000000FF00000000#64 ∧ tbl 0x80#8 = 0x00000000000000FF#64)

/-- R127: for every word, the table entry at the index the fold makes from it is 0xFF exactly in the lanes whose sign
bit is set. -/
def Obligations.TableUndoesTheFold : Prop :=
  ∀ (x : BitVec 64) (k : Fin 8),
    lane (tbl (indexOfWord x)) k.val = if x.getLsbD (8 * k.val + 7) then 0xFF#8 else 0x00#8

/-! The load (42_load, 20_memory). -/

/-- R135 with R136 and R62: where the eight bytes from BASE + 8 W on are readable, LDW puts them into X in the unit's
byte order and changes nothing else but PHASE; where one is not, LDW has no step (R135's own
words; a fault is the model's form for it, log 6). -/
def Obligations.LdwLoadsTheWord : Prop :=
  encode .ldw = .phase 4#5 ∧
  (∀ (st : State) (b : Nat → BitVec 8),
    (∀ t, t < 8 → st.isReadable (st.base.toNat + 8 * st.w.toNat + t) = true ∧
      Memory.byteAt st.mem (st.base.toNat + 8 * st.w.toNat + t) = b t) →
      exec .ldw st = .next { st with
        x := match st.byteOrder with
          | .le => b 7 ++ b 6 ++ b 5 ++ b 4 ++ b 3 ++ b 2 ++ b 1 ++ b 0
          | .be => b 0 ++ b 1 ++ b 2 ++ b 3 ++ b 4 ++ b 5 ++ b 6 ++ b 7
        phase := 5#5 }) ∧
  (∀ (st : State) (t : Nat), t < 8 →
    st.isReadable (st.base.toNat + 8 * st.w.toNat + t) = false → ∃ a, exec .ldw st = .fault (.unreadable a))

/-- R62: lane `k` of the loaded word is the byte at offset `k` in LE and at offset `7 - k` in BE, and LDW
does not switch the order. -/
def Obligations.LoadedLanesAreTheBytes : Prop :=
  ∀ st t : State, exec .ldw st = .next t → t.byteOrder = st.byteOrder ∧ ∀ k : Fin 8,
    lane t.x k.val = Memory.byteAt st.mem (st.base.toNat + 8 * st.w.toNat +
      (match st.byteOrder with
        | .le => k.val
        | .be => 7 - k.val))

/-- R67: a unit at LDW with an unreadable byte in its word has no step, and the fault names an address of the word that
is not readable. That the stuck state is a fault is the model's form for it (log 6). -/
def Obligations.UnreadableWordIsStuck : Prop :=
  ∀ (st : State) (t : Nat), st.hostMoves = [] → st.state = .busy → st.phase = 4#5 → t < 8 →
    st.isReadable (st.base.toNat + 8 * st.w.toNat + t) = false →
    ∃ a, step st = .fault (.unreadable a) ∧ st.isReadable a = false ∧
      st.base.toNat + 8 * st.w.toNat ≤ a ∧ a ≤ st.base.toNat + 8 * st.w.toNat + 7

/-- R68: no address is wrapped; a word that passes the top of the address space is stuck. That the stuck state is a fault
is the model's form for it (log 6). -/
def Obligations.AddressesAreNeverWrapped : Prop :=
  ∀ st : State, 2 ^ 64 ≤ st.base.toNat + 8 * st.w.toNat + 7 → ∃ a, exec .ldw st = .fault (.unreadable a)

/-! The filter (43_filter). -/

/-- R140. -/
def Obligations.SgnxIsolatesTheSignBits : Prop :=
  encode .sgnx = .phase 5#5 ∧
  ∀ st : State, exec .sgnx st = .next { st with b := st.x &&& 0x8080808080808080#64, phase := 6#5 }

/-- R142, R144, R146: each fold step works on the result of the one before, with its own constant shift. -/
def Obligations.FoldStepsShiftAndOr : Prop :=
  (encode .fold33 = .phase 6#5 ∧ encode .fold18 = .phase 7#5 ∧ encode .fold12 = .phase 8#5) ∧
  ∀ st : State,
    exec .fold33 st = .next { st with b := st.b ||| (st.b >>> 33), phase := 7#5 } ∧
    exec .fold18 st = .next { st with b := st.b ||| (st.b >>> 18), phase := 8#5 } ∧
    exec .fold12 st = .next { st with b := st.b ||| (st.b >>> 12), phase := 9#5 }

/-- R149: IDX is the low byte of B. -/
def Obligations.IdxmTakesTheIndex : Prop :=
  encode .idxm = .phase 9#5 ∧
  ∀ st : State, ∃ v : BitVec 8, exec .idxm st = .next { st with idx := v, phase := 10#5 } ∧
    v.toNat = (st.b &&& 0xFF#64).toNat

/-- R152: M is the entry of TABLE that IDX names, which is TBL(IDX) once the table is built. -/
def Obligations.LutReadsTheMask : Prop :=
  encode .lut = .phase 10#5 ∧
  ∀ st : State, exec .lut st = .next { st with m := st.table.get st.idx.toFin, phase := 11#5 } ∧
    (st.tableBuilt → exec .lut st = .next { st with m := tbl st.idx, phase := 11#5 })

/-- R154. -/
def Obligations.MskZeroesTheLanes : Prop :=
  encode .msk = .phase 11#5 ∧
  ∀ st : State, exec .msk st = .next { st with x := st.x &&& st.m, phase := 12#5 }

/-- R141: after SGNX bit `8k+7` of B is that bit of X, and every other bit of B is 0. -/
def Obligations.SignBitsAloneSurvive : Prop :=
  ∀ st : State, ∃ t, exec .sgnx st = .next t ∧
    ∀ p, t.b.getLsbD p = (st.x.getLsbD p && decide (p % 8 = 7))

/-- R148: after each of the four steps B is the OR, over the lanes with the sign bit set, of the constants of the table;
the constants of different lanes share no bit. -/
def Obligations.FoldIsLinearInTheSignBits : Prop :=
  let columns : List (List Instr × List (BitVec 64)) :=
    [([.sgnx],
      [0x0000000000000080#64, 0x0000000000008000#64, 0x0000000000800000#64, 0x0000000080000000#64,
       0x0000008000000000#64, 0x0000800000000000#64, 0x0080000000000000#64, 0x8000000000000000#64]),
     ([.sgnx, .fold33],
      [0x0000000000000080#64, 0x0000000000008000#64, 0x0000000000800000#64, 0x0000000080000000#64,
       0x0000008000000040#64, 0x0000800000004000#64, 0x0080000000400000#64, 0x8000000040000000#64]),
     ([.sgnx, .fold33, .fold18],
      [0x0000000000000080#64, 0x0000000000008000#64, 0x0000000000800020#64, 0x0000000080002000#64,
       0x0000008000200040#64, 0x0000800020004000#64, 0x0080002000400010#64, 0x8000200040001000#64]),
     ([.sgnx, .fold33, .fold18, .fold12],
      [0x0000000000000080#64, 0x0000000000008008#64, 0x0000000000800820#64, 0x0000000080082002#64,
       0x0000008008200240#64, 0x0000800820024004#64, 0x0080082002400410#64, 0x8008200240041001#64])]
  ∀ col, col ∈ columns →
    (∀ st : State, ∃ t, execAll col.1 st = .next t ∧
      t.b = ((List.range 8).map fun k => if st.x.getLsbD (8 * k + 7) then col.2.getD k 0#64 else 0#64).foldr
        (· ||| ·) 0#64) ∧
    (∀ j k : Fin 8, j ≠ k → col.2.getD j.val 0#64 &&& col.2.getD k.val 0#64 = 0#64)

/-- R150, the index theorem: after SGNX, FOLD33, FOLD18, FOLD12, IDXM bit `j` of IDX is the sign bit of lane P(j). -/
def Obligations.IndexBitsAreThePermutedSignBits : Prop :=
  ∀ st : State, ∃ t, execAll [.sgnx, .fold33, .fold18, .fold12, .idxm] st = .next t ∧
    (∀ j : Fin 8, t.idx.getLsbD j.val = st.x.getLsbD (8 * (laneOfIndexBit j).val + 7)) ∧
    t.idx.getLsbD 0 = st.x.getLsbD 63 ∧ t.idx.getLsbD 1 = st.x.getLsbD 31 ∧ t.idx.getLsbD 2 = st.x.getLsbD 47 ∧
    t.idx.getLsbD 3 = st.x.getLsbD 15 ∧ t.idx.getLsbD 4 = st.x.getLsbD 55 ∧ t.idx.getLsbD 5 = st.x.getLsbD 23 ∧
    t.idx.getLsbD 6 = st.x.getLsbD 39 ∧ t.idx.getLsbD 7 = st.x.getLsbD 7

/-- R151: every index 0 to 255 occurs for some word, and words with different sign patterns have different indices. -/
def Obligations.EveryIndexOccurs : Prop :=
  (∀ i : BitVec 8, ∃ x : BitVec 64, indexOfWord x = i) ∧
  (∀ x y : BitVec 64, indexOfWord x = indexOfWord y ↔ ∀ k : Fin 8, x.getLsbD (8 * k.val + 7) = y.getLsbD (8 * k.val + 7))

/-- R157 with R153 and R155: FILTER, run with the table built, ends with each lane of X put through CM and each lane of M
the mask of its byte; the registers it does not name are as before. -/
def Obligations.FilterIsLanewise : Prop :=
  ∀ st : State, st.tableBuilt →
    ∃ t, execAll filterOps st = .next t ∧
      (∀ k : Fin 8, lane t.x k.val = compareMask (lane st.x k.val) ∧
        lane t.m k.val = 0xFF#8 * (lane st.x k.val >>> 7)) ∧
      t = { st with x := t.x, b := t.b, idx := t.idx, m := t.m, phase := 12#5 }

/-- R158, R159, R160: the three forms of the per-byte unit are one function, and the comparison is a test of bit 7. -/
def Obligations.PerByteFormsAgree : Prop :=
  ∀ v : BitVec 8,
    (128 ≤ v.toNat ↔ v.getLsbD 7 = true) ∧ compareMask v = (if 128 ≤ v.toNat then v else 0#8) ∧
    compareMask v = v &&& (0xFF#8 * (v >>> 7)) ∧
    compareMask v = (if 128 ≤ v.toNat then 1#8 else 0#8) * v

/-! The reduction and the accumulation (44_reduce). -/

/-- R165, R168, R171: the three stages, each one shift, mask and add. -/
def Obligations.ReductionStagesShiftMaskAndAdd : Prop :=
  (encode .hs8 = .phase 12#5 ∧ encode .hs16 = .phase 13#5 ∧ encode .hs32 = .phase 14#5) ∧
  ∀ st : State,
    exec .hs8 st = .next { st with
      s := ((st.x &&& 0xFF00FF00FF00FF00#64) >>> 8) + (st.x &&& 0x00FF00FF00FF00FF#64), phase := 13#5 } ∧
    exec .hs16 st = .next { st with
      s := ((st.s &&& 0xFFFF0000FFFF0000#64) >>> 16) + (st.s &&& 0x0000FFFF0000FFFF#64), phase := 14#5 } ∧
    exec .hs32 st = .next { st with s := (st.s >>> 32) + (st.s &&& 0x00000000FFFFFFFF#64), phase := 15#5 }

/-- R166 and R167: after HS8 field `q` of S is lane `2q` plus lane `2q+1` of X, for every X; shifting first and masking
second gives the same S. -/
def Obligations.Hs8AddsNeighbouringLanes : Prop :=
  ∀ st : State, ∃ t, exec .hs8 st = .next t ∧
    (∀ q : Fin 4, (t.s.extractLsb' (16 * q.val) 16).toNat =
      (lane st.x (2 * q.val)).toNat + (lane st.x (2 * q.val + 1)).toNat) ∧
    t.s = ((st.x >>> 8) &&& 0x00FF00FF00FF00FF#64) + (st.x &&& 0x00FF00FF00FF00FF#64)

/-- R169: after HS16, for every S, each 32-bit field is the sum of the two 16-bit fields in it; on the result of HS8 the
two fields are the sums of lanes 0 to 3 and 4 to 7, each at most 1020. -/
def Obligations.Hs16AddsNeighbouringFields : Prop :=
  (∀ st : State, ∃ t, exec .hs16 st = .next t ∧
    ∀ q : Fin 2, (t.s.extractLsb' (32 * q.val) 32).toNat =
      (st.s.extractLsb' (32 * q.val) 16).toNat + (st.s.extractLsb' (32 * q.val + 16) 16).toNat) ∧
  (∀ st : State, ∃ t, execAll [.hs8, .hs16] st = .next t ∧
    (t.s.extractLsb' 0 32).toNat =
      (lane st.x 0).toNat + (lane st.x 1).toNat + (lane st.x 2).toNat + (lane st.x 3).toNat ∧
    (t.s.extractLsb' 32 32).toNat =
      (lane st.x 4).toNat + (lane st.x 5).toNat + (lane st.x 6).toNat + (lane st.x 7).toNat ∧
    (t.s.extractLsb' 0 32).toNat ≤ 1020 ∧ (t.s.extractLsb' 32 32).toNat ≤ 1020)

/-- R172 and R175: HS8, HS16, HS32 end with S the exact sum of the eight lanes of X, at most 2040, for every X; X stays. -/
def Obligations.ReductionIsExact : Prop :=
  ∀ st : State, ∃ t, execAll hsumOps st = .next t ∧
    t.s.toNat = (lane st.x 0).toNat + (lane st.x 1).toNat + (lane st.x 2).toNat + (lane st.x 3).toNat +
      (lane st.x 4).toNat + (lane st.x 5).toNat + (lane st.x 6).toNat + (lane st.x 7).toNat ∧
    t.s.toNat ≤ 2040 ∧ t.s.extractLsb' 11 53 = 0#53 ∧ t = { st with s := t.s, phase := 15#5 }

/-- R176: ACCUM adds S to ACC modulo 2^64; the carry out is recorded nowhere. -/
def Obligations.AccumAddsModulo : Prop :=
  encode .accum = .phase 15#5 ∧
  ∀ st : State, exec .accum st = .next { st with acc := st.acc + st.s, phase := 16#5 } ∧
    (st.acc + st.s).toNat = (st.acc.toNat + st.s.toNat) % 2 ^ 64

/-- R177: one pass LDW, FILTER, HSUM, ACCUM over a readable word adds the sum of its qualifying bytes to ACC, modulo
2^64, whatever the byte order. -/
def Obligations.WordPassAddsTheQualifyingBytes : Prop :=
  ∀ st : State, st.tableBuilt →
    (∀ t, t < 8 → st.isReadable (st.base.toNat + 8 * st.w.toNat + t) = true) →
    ∃ t, execAll ([.ldw] ++ filterOps ++ hsumOps ++ [.accum]) st = .next t ∧
      t.acc = st.acc + BitVec.ofNat 64
        (((List.range 8).map fun j => (compareMask (st.bufferByte (8 * st.w.toNat + j))).toNat).sum) ∧
      t = { st with x := t.x, b := t.b, idx := t.idx, m := t.m, s := t.s, acc := t.acc, phase := 16#5 }

/-! The whole machine: frames, the step, invariants. -/

/-- R66, R39 and the writers' column of R20: no operation writes the buffer address space, the parameters BYTE_ORDER and
Readable, what the host is told or is about to do; and no micro-operation writes BASE or LEN. -/
def Obligations.OperationsLeaveTheHostsThingsAlone : Prop :=
  ∀ (i : Instr) (st t : State), exec i st = .next t →
    t.mem = st.mem ∧ t.readable = st.readable ∧ t.byteOrder = st.byteOrder ∧ t.hostMoves = st.hostMoves ∧
    t.hostReplies = st.hostReplies ∧
    (i ≠ .start → t.base = st.base ∧ t.len = st.len ∧ t.baseSet = st.baseSet ∧ t.lenSet = st.lenSet ∧
      t.draws = st.draws)

/-- R20, the 'written by' column, for the datapath and RESULT: a register changes only under the operations it names. -/
def Obligations.RegistersHaveOnlyTheirWriters : Prop :=
  ∀ (i : Instr) (st t : State), exec i st = .next t →
    (t.x ≠ st.x → i = .ldw ∨ i = .msk) ∧
    (t.b ≠ st.b → i = .sgnx ∨ i = .fold33 ∨ i = .fold18 ∨ i = .fold12) ∧
    (t.idx ≠ st.idx → i = .idxm) ∧ (t.m ≠ st.m → i = .lut) ∧
    (t.s ≠ st.s → i = .hs8 ∨ i = .hs16 ∨ i = .hs32) ∧ (t.acc ≠ st.acc → i = .start ∨ i = .accum) ∧
    (t.w ≠ st.w → i = .start ∨ i = .incw) ∧ (t.table ≠ st.table → i = .tblgen) ∧
    (t.result ≠ st.result → i = .fin) ∧
    (t.state ≠ st.state → i = .start ∨ i = .fin ∨ i = .chklen) ∧
    (t.err ≠ st.err → i = .start ∨ i = .chklen)

/-- R107: with nothing from outside, a BUSY unit performs the operation PHASE names, and a unit that is not BUSY has no
step of its own (the machine's step then changes nothing: log 8). With the move `pass` the same happens, the move being
used up (log 9). -/
def Obligations.StepPerformsWhatPhaseNames : Prop :=
  ∀ (st : State) (i : Instr),
    (st.hostMoves = [] → st.state = .busy → decode (.phase st.phase) = .ok i → step st = exec i st) ∧
    (st.hostMoves = [] → st.state ≠ .busy → step st = .next st) ∧
    (∀ rest, st.hostMoves = .pass :: rest → st.state = .busy → decode (.phase st.phase) = .ok i →
      step st = exec i { st with hostMoves := rest }) ∧
    (∀ rest, st.hostMoves = .pass :: rest → st.state ≠ .busy → step st = .next { st with hostMoves := rest })

/-- R33 and R91: the host's write of 1 to CTRL performs START, in every state; its write of 0 changes nothing; a read of
CTRL returns 0. -/
def Obligations.CtrlIsTheStartCommand : Prop :=
  ∀ (st : State) (rest : List HostMove),
    (st.hostMoves = .writeCtrl 1#1 :: rest → step st = exec .start { st with hostMoves := rest }) ∧
    (st.hostMoves = .writeCtrl 0#1 :: rest → step st = .next { st with hostMoves := rest }) ∧
    (st.hostMoves = .readCtrl :: rest →
      step st = .next { st with hostMoves := rest, hostReplies := st.hostReplies ++ [.ctrl 0#1] })

/-- R92: a BUSY unit whose PHASE is reserved has no step. -/
def Obligations.ReservedPhaseIsStuck : Prop :=
  ∀ st : State, st.hostMoves = [] → st.state = .busy → 18 ≤ st.phase.toNat →
    step st = .fault (.reservedPhase st.phase)

/-- R40: the values the spec gives for reset. The values of the registers it leaves unspecified are the model's (log 2)
and nothing is said of them here. -/
def Obligations.ResetLeavesTheUnitIdle : Prop :=
  State.reset.state = .idle ∧ State.reset.err = 0#4 ∧ State.reset.statusByte = 0x00#8 ∧ State.reset.phase = 0#5

/-- R220 and R221: the platform's reset, at any time, leaves the unit as after reset and the buffer as it was. That BASE and
LEN then hold no value is the model's mark for 'unspecified' (R40; log 3); that the parameters, the moves still to come and the
replies stay is the model's reading (log 24). -/
def Obligations.ResetAbandonsACall : Prop :=
  ∀ (st : State) (rest : List HostMove), st.hostMoves = .reset :: rest →
    ∃ t, step st = .next t ∧ t.state = .idle ∧ t.err = 0#4 ∧ t.phase = 0#5 ∧ t.baseSet = false ∧ t.lenSet = false ∧
      t.mem = st.mem ∧ t.readable = st.readable ∧ t.byteOrder = st.byteOrder ∧ t.hostMoves = rest ∧
      t.hostReplies = st.hostReplies

/-- The control invariant, the call invariant and the memory's canonical form hold right after reset. -/
def Obligations.InvariantsHoldAtReset : Prop :=
  State.reset.Inv ∧ State.reset.CallInv ∧ Memory.wf State.reset.mem = true

/-- The control invariant (R27, R34, R92, R104, R106, R111) and the memory's canonical form (log 5) are kept by every
step, of the unit, the host or the platform; and no step, the host's and the platform's reset among them, writes one of the
parameters BYTE_ORDER and Readable (R39, R62, R209). -/
def Obligations.StepKeepsTheControlInvariant : Prop :=
  ∀ st t : State, step st = .next t →
    (st.Inv → t.Inv) ∧ (Memory.wf st.mem = true → Memory.wf t.mem = true) ∧
    t.readable = st.readable ∧ t.byteOrder = st.byteOrder

/-- R110, made inductive: the call invariant, which at TSTW is the loop invariant of the spec (ACC is the sum of the
qualifying bytes among the first 8 W, modulo 2^64, and the table is built), is kept by every step. -/
def Obligations.StepKeepsTheCallInvariant : Prop :=
  ∀ st t : State, st.CallInv → step st = .next t → t.CallInv

/-- Where a step can stop, under the control invariant: only at LDW, at an address that is not readable (R67, R68,
R202), and only where the host writes into the buffer of a call in progress (R71). -/
def Obligations.StepsStopOnlyWhereTheSpecSays : Prop :=
  ∀ st : State, st.Inv →
    (∀ f, step st = .fault f → st.state = .busy ∧ st.phase = 4#5 ∧
      ∃ a, f = .unreadable a ∧ st.isReadable a = false) ∧
    (∀ r, step st = .refused r → st.state = .busy ∧ ∃ a v rest, st.hostMoves = .putByte a v :: rest ∧
      r = .bufferWrittenDuringCall a ∧ st.base.toNat ≤ a.toNat ∧ a.toNat < st.base.toNat + st.len.toNat)

/-- With a readable buffer a call in progress always has its next step (R103 b, R109). -/
def Obligations.ReadableCallsNeverStop : Prop :=
  ∀ st : State, st.Inv → st.bufferReadable → st.hostMoves = [] → ∃ t, step st = .next t

/-! Whole calls. -/

/-- R100 second line, R109 and R186: a call on a readable buffer whose length is a multiple of 8 ends, after START and
`4 + 14 (LEN div 8)` micro-operations, in DONE with RESULT the reference sum modulo 2^64, which is the exact sum while
`LEN × 255 < 2^64`; the buffer, BASE and LEN are unchanged. -/
def Obligations.CallComputesTheReference : Prop :=
  ∀ st : State, st.aboutToStart → st.len.toNat % 8 = 0 → st.bufferReadable →
    ∃ t, steps (1 + (4 + 14 * (st.len.toNat / 8))) st = .next t ∧ t.state = .done ∧ t.err = 0#4 ∧ t.phase = 0#5 ∧
      t.result.toNat = reference (st.bufferPrefix st.len.toNat) % 2 ^ 64 ∧
      (st.len.toNat * 255 < 2 ^ 64 → t.result.toNat = reference (st.bufferPrefix st.len.toNat)) ∧
      t.mem = st.mem ∧ t.base = st.base ∧ t.len = st.len

/-- R109: a call is no shorter than that: at every earlier step after START the unit is still BUSY. -/
def Obligations.CallIsBusyUntilItsEnd : Prop :=
  ∀ (st : State) (k : Nat), st.aboutToStart → st.len.toNat % 8 = 0 → st.bufferReadable →
    1 ≤ k → k < 1 + (4 + 14 * (st.len.toNat / 8)) → ∃ t, steps k st = .next t ∧ t.state = .busy

/-- R100 first line, R203, R204 (a), R188: a call whose length is not a multiple of 8 fails at its first micro-operation,
readable or not, and has written nothing but ACC, W, ERR, STATE and PHASE. -/
def Obligations.CallOfABadLengthFails : Prop :=
  ∀ st : State, st.aboutToStart → st.len.toNat % 8 ≠ 0 →
    steps 2 st = .next { st with
      acc := 0#64, w := 0#61, err := 1#4, state := .fail, phase := 0#5, hostMoves := [] }

/-- R76, R189, R204 (b): a call of length 0 ends in DONE with RESULT 0 after four micro-operations, whatever BASE and the
memory hold. -/
def Obligations.CallOfLengthZeroReturnsZero : Prop :=
  ∀ st : State, st.aboutToStart → st.len = 0#64 →
    ∃ t, steps 5 st = .next t ∧ t.state = .done ∧ t.err = 0#4 ∧ t.result = 0#64 ∧ t.mem = st.mem

/-- R205: the error is recoverable: in FAIL the host writes a new LEN and START, and a fresh call begins. -/
def Obligations.FailureIsRecoverable : Prop :=
  ∀ (st : State) (n : BitVec 64) (rest : List HostMove), st.state = .fail → st.baseSet = true →
    st.hostMoves = .writeLen n :: .writeCtrl 1#1 :: rest →
    steps 2 st = .next { st with
      len := n, lenSet := true, acc := 0#64, w := 0#61, err := 0#4, state := .busy, phase := 1#5, hostMoves := rest }

/-- R63: two units that differ in nothing but the byte order end a call with the same outcome. -/
def Obligations.OutcomeDoesNotDependOnByteOrder : Prop :=
  ∀ (st : State) (o : ByteOrder), st.aboutToStart → (st.len.toNat % 8 = 0 → st.bufferReadable) →
    ∃ t u, steps st.callSteps st = .next t ∧ steps st.callSteps { st with byteOrder := o } = .next u ∧
      t.state ≠ .busy ∧ u.outcome = t.outcome

/-- R38: what the host sees of a call, at every step after START, is a function of BASE, LEN, the buffer and the
parameters: two units that agree on these show the same, whatever X, B, IDX, M, S, ACC, W, TABLE, RESULT, ERR held before. -/
def Obligations.OutcomeDoesNotDependOnHistory : Prop :=
  ∀ (st u : State) (k : Nat) (t : State), st.aboutToStart → u.aboutToStart →
    u.base = st.base → u.len = st.len → u.mem = st.mem → u.readable = st.readable →
    u.byteOrder = st.byteOrder →
    steps (k + 1) st = .next t → ∃ v, steps (k + 1) u = .next v ∧ v.outcome = t.outcome

/-- R187: a second call on the same unchanged buffer, with the same BASE and LEN, ends as the first did and leaves the
buffer unchanged. -/
def Obligations.CallsAreIdempotent : Prop :=
  ∀ st : State, st.aboutToStart → (st.len.toNat % 8 = 0 → st.bufferReadable) →
    ∃ t u, steps st.callSteps st = .next t ∧
      steps st.callSteps { t with hostMoves := [.writeCtrl 1#1] } = .next u ∧
      u.outcome = t.outcome ∧ u.mem = st.mem

/-! The host's side of the registers (10_state R31 to R36). -/

/-- R34: the layout of STATUS as the host reads it. -/
def Obligations.StatusByteHasTheListedLayout : Prop :=
  ∀ (st : State) (rest : List HostMove), st.hostMoves = .readStatus :: rest →
    ∃ v : BitVec 8, step st = .next { st with hostMoves := rest, hostReplies := st.hostReplies ++ [.status v] } ∧
      (v.extractLsb' 0 2).toNat =
        (match st.state with
          | .idle => 0
          | .busy => 1
          | .done => 2
          | .fail => 3) ∧
      v.extractLsb' 2 2 = 0#2 ∧ v.extractLsb' 4 4 = st.err

/-- R31 and R32: outside a call the host's writes of BASE and LEN take effect, and its reads return what it wrote; a read
alone returns the register's value and changes nothing. A read of a register that nothing has written since reset returns
some value, of which nothing is said (R41, 93 U12); that the register then keeps it, and that a new value is drawn, is the
model's choice (log 3). -/
def Obligations.OperandsAreReadAndWritten : Prop :=
  ∀ (st : State) (v : BitVec 64) (rest : List HostMove), st.state ≠ .busy →
    (st.hostMoves = .writeBase v :: .readBase :: rest →
      steps 2 st = .next { st with
        base := v, baseSet := true, hostMoves := rest, hostReplies := st.hostReplies ++ [.base v] }) ∧
    (st.hostMoves = .writeLen v :: .readLen :: rest →
      steps 2 st = .next { st with
        len := v, lenSet := true, hostMoves := rest, hostReplies := st.hostReplies ++ [.len v] }) ∧
    (st.hostMoves = .readBase :: rest → st.baseSet = true →
      step st = .next { st with hostMoves := rest, hostReplies := st.hostReplies ++ [.base st.base] }) ∧
    (st.hostMoves = .readLen :: rest → st.lenSet = true →
      step st = .next { st with hostMoves := rest, hostReplies := st.hostReplies ++ [.len st.len] }) ∧
    (st.hostMoves = .readBase :: rest → st.baseSet = false → ∃ r, step st = .next { st with
      base := r, baseSet := true, hostMoves := rest, hostReplies := st.hostReplies ++ [.base r]
      draws := st.draws + 1 }) ∧
    (st.hostMoves = .readLen :: rest → st.lenSet = false → ∃ r, step st = .next { st with
      len := r, lenSet := true, hostMoves := rest, hostReplies := st.hostReplies ++ [.len r]
      draws := st.draws + 1 })

/-- R36: while BUSY, writes of BASE, LEN and CTRL change nothing, and reads of STATUS, BASE, LEN and CTRL return 0x01
(with ERR 0, as in every call), the registers and 0. A read of RESULT returns some value, of which nothing is said;
that a new value is then drawn is the model's form of 'unspecified' (log 4). -/
def Obligations.BusyUnitIgnoresHostWrites : Prop :=
  ∀ (st : State) (v : BitVec 64) (c : BitVec 1) (rest : List HostMove), st.Inv → st.state = .busy →
    (st.hostMoves = .writeBase v :: rest → step st = .next { st with hostMoves := rest }) ∧
    (st.hostMoves = .writeLen v :: rest → step st = .next { st with hostMoves := rest }) ∧
    (st.hostMoves = .writeCtrl c :: rest → step st = .next { st with hostMoves := rest }) ∧
    (st.hostMoves = .readStatus :: rest →
      step st = .next { st with hostMoves := rest, hostReplies := st.hostReplies ++ [.status 0x01#8] }) ∧
    (st.hostMoves = .readBase :: rest →
      step st = .next { st with hostMoves := rest, hostReplies := st.hostReplies ++ [.base st.base] }) ∧
    (st.hostMoves = .readLen :: rest →
      step st = .next { st with hostMoves := rest, hostReplies := st.hostReplies ++ [.len st.len] }) ∧
    (st.hostMoves = .readCtrl :: rest →
      step st = .next { st with hostMoves := rest, hostReplies := st.hostReplies ++ [.ctrl 0#1] }) ∧
    (st.hostMoves = .readResult :: rest → ∃ r, step st = .next { st with
      hostMoves := rest, hostReplies := st.hostReplies ++ [.result r], draws := st.draws + 1 })

/-- R35: a read of RESULT while DONE returns it; in every other state it returns some value, and nothing the spec names
changes. That a new value is drawn is the model's form of 'unspecified' (log 4). -/
def Obligations.ResultIsReadWhileDone : Prop :=
  ∀ (st : State) (rest : List HostMove), st.hostMoves = .readResult :: rest →
    (st.state = .done →
      step st = .next { st with hostMoves := rest, hostReplies := st.hostReplies ++ [.result st.result] }) ∧
    (st.state ≠ .done → ∃ r, step st = .next { st with
      hostMoves := rest, hostReplies := st.hostReplies ++ [.result r], draws := st.draws + 1 })

/-- R71 (c): a write into the buffer of a call in progress is refused; R224 (1): every other byte the host puts in place is
then the one at its address, and every other address holds what it held before; and what the unit may read stays as the
platform has it (R209), barred or not. -/
def Obligations.HostFillsTheBufferOutsideCalls : Prop :=
  ∀ (st : State) (a : BitVec 64) (v : BitVec 8) (rest : List HostMove), st.hostMoves = .putByte a v :: rest →
    (st.state = .busy ∧ st.base.toNat ≤ a.toNat ∧ a.toNat < st.base.toNat + st.len.toNat →
      step st = .refused (.bufferWrittenDuringCall a)) ∧
    (¬ (st.state = .busy ∧ st.base.toNat ≤ a.toNat ∧ a.toNat < st.base.toNat + st.len.toNat) →
      ∃ t, step st = .next t ∧ t = { st with mem := t.mem, hostMoves := rest } ∧
        Memory.byteAt t.mem a.toNat = v ∧ (∀ c, t.isReadable c = st.isReadable c) ∧
        ∀ c, c ≠ a.toNat → Memory.byteAt t.mem c = Memory.byteAt st.mem c)
end

