-- ==== Sys2Proof/Laws/State.lean ====
section
/-! SUPPORT. What each register update of Machine/Ops.lean leaves in each field: one lemma per field per update. -/

namespace Sys2Proof.Machine

@[simp] theorem State.setX_x (st : State) (v : BitVec 64) : (st.setX v).x = v := rfl
@[simp] theorem State.setX_b (st : State) (v : BitVec 64) : (st.setX v).b = st.b := rfl
@[simp] theorem State.setX_idx (st : State) (v : BitVec 64) : (st.setX v).idx = st.idx := rfl
@[simp] theorem State.setX_m (st : State) (v : BitVec 64) : (st.setX v).m = st.m := rfl
@[simp] theorem State.setX_s (st : State) (v : BitVec 64) : (st.setX v).s = st.s := rfl
@[simp] theorem State.setX_acc (st : State) (v : BitVec 64) : (st.setX v).acc = st.acc := rfl
@[simp] theorem State.setX_w (st : State) (v : BitVec 64) : (st.setX v).w = st.w := rfl
@[simp] theorem State.setX_phase (st : State) (v : BitVec 64) : (st.setX v).phase = st.phase := rfl
@[simp] theorem State.setX_table (st : State) (v : BitVec 64) : (st.setX v).table = st.table := rfl
@[simp] theorem State.setX_base (st : State) (v : BitVec 64) : (st.setX v).base = st.base := rfl
@[simp] theorem State.setX_len (st : State) (v : BitVec 64) : (st.setX v).len = st.len := rfl
@[simp] theorem State.setX_state (st : State) (v : BitVec 64) : (st.setX v).state = st.state := rfl
@[simp] theorem State.setX_err (st : State) (v : BitVec 64) : (st.setX v).err = st.err := rfl
@[simp] theorem State.setX_result (st : State) (v : BitVec 64) : (st.setX v).result = st.result := rfl
@[simp] theorem State.setX_mem (st : State) (v : BitVec 64) : (st.setX v).mem = st.mem := rfl
@[simp] theorem State.setX_readable (st : State) (v : BitVec 64) : (st.setX v).readable = st.readable := rfl
@[simp] theorem State.setX_byteOrder (st : State) (v : BitVec 64) : (st.setX v).byteOrder = st.byteOrder := rfl
@[simp] theorem State.setX_baseSet (st : State) (v : BitVec 64) : (st.setX v).baseSet = st.baseSet := rfl
@[simp] theorem State.setX_lenSet (st : State) (v : BitVec 64) : (st.setX v).lenSet = st.lenSet := rfl
@[simp] theorem State.setX_hostMoves (st : State) (v : BitVec 64) : (st.setX v).hostMoves = st.hostMoves := rfl
@[simp] theorem State.setX_hostReplies (st : State) (v : BitVec 64) : (st.setX v).hostReplies = st.hostReplies := rfl
@[simp] theorem State.setX_draws (st : State) (v : BitVec 64) : (st.setX v).draws = st.draws := rfl

@[simp] theorem State.setB_x (st : State) (v : BitVec 64) : (st.setB v).x = st.x := rfl
@[simp] theorem State.setB_b (st : State) (v : BitVec 64) : (st.setB v).b = v := rfl
@[simp] theorem State.setB_idx (st : State) (v : BitVec 64) : (st.setB v).idx = st.idx := rfl
@[simp] theorem State.setB_m (st : State) (v : BitVec 64) : (st.setB v).m = st.m := rfl
@[simp] theorem State.setB_s (st : State) (v : BitVec 64) : (st.setB v).s = st.s := rfl
@[simp] theorem State.setB_acc (st : State) (v : BitVec 64) : (st.setB v).acc = st.acc := rfl
@[simp] theorem State.setB_w (st : State) (v : BitVec 64) : (st.setB v).w = st.w := rfl
@[simp] theorem State.setB_phase (st : State) (v : BitVec 64) : (st.setB v).phase = st.phase := rfl
@[simp] theorem State.setB_table (st : State) (v : BitVec 64) : (st.setB v).table = st.table := rfl
@[simp] theorem State.setB_base (st : State) (v : BitVec 64) : (st.setB v).base = st.base := rfl
@[simp] theorem State.setB_len (st : State) (v : BitVec 64) : (st.setB v).len = st.len := rfl
@[simp] theorem State.setB_state (st : State) (v : BitVec 64) : (st.setB v).state = st.state := rfl
@[simp] theorem State.setB_err (st : State) (v : BitVec 64) : (st.setB v).err = st.err := rfl
@[simp] theorem State.setB_result (st : State) (v : BitVec 64) : (st.setB v).result = st.result := rfl
@[simp] theorem State.setB_mem (st : State) (v : BitVec 64) : (st.setB v).mem = st.mem := rfl
@[simp] theorem State.setB_readable (st : State) (v : BitVec 64) : (st.setB v).readable = st.readable := rfl
@[simp] theorem State.setB_byteOrder (st : State) (v : BitVec 64) : (st.setB v).byteOrder = st.byteOrder := rfl
@[simp] theorem State.setB_baseSet (st : State) (v : BitVec 64) : (st.setB v).baseSet = st.baseSet := rfl
@[simp] theorem State.setB_lenSet (st : State) (v : BitVec 64) : (st.setB v).lenSet = st.lenSet := rfl
@[simp] theorem State.setB_hostMoves (st : State) (v : BitVec 64) : (st.setB v).hostMoves = st.hostMoves := rfl
@[simp] theorem State.setB_hostReplies (st : State) (v : BitVec 64) : (st.setB v).hostReplies = st.hostReplies := rfl
@[simp] theorem State.setB_draws (st : State) (v : BitVec 64) : (st.setB v).draws = st.draws := rfl

@[simp] theorem State.setIdx_x (st : State) (v : BitVec 8) : (st.setIdx v).x = st.x := rfl
@[simp] theorem State.setIdx_b (st : State) (v : BitVec 8) : (st.setIdx v).b = st.b := rfl
@[simp] theorem State.setIdx_idx (st : State) (v : BitVec 8) : (st.setIdx v).idx = v := rfl
@[simp] theorem State.setIdx_m (st : State) (v : BitVec 8) : (st.setIdx v).m = st.m := rfl
@[simp] theorem State.setIdx_s (st : State) (v : BitVec 8) : (st.setIdx v).s = st.s := rfl
@[simp] theorem State.setIdx_acc (st : State) (v : BitVec 8) : (st.setIdx v).acc = st.acc := rfl
@[simp] theorem State.setIdx_w (st : State) (v : BitVec 8) : (st.setIdx v).w = st.w := rfl
@[simp] theorem State.setIdx_phase (st : State) (v : BitVec 8) : (st.setIdx v).phase = st.phase := rfl
@[simp] theorem State.setIdx_table (st : State) (v : BitVec 8) : (st.setIdx v).table = st.table := rfl
@[simp] theorem State.setIdx_base (st : State) (v : BitVec 8) : (st.setIdx v).base = st.base := rfl
@[simp] theorem State.setIdx_len (st : State) (v : BitVec 8) : (st.setIdx v).len = st.len := rfl
@[simp] theorem State.setIdx_state (st : State) (v : BitVec 8) : (st.setIdx v).state = st.state := rfl
@[simp] theorem State.setIdx_err (st : State) (v : BitVec 8) : (st.setIdx v).err = st.err := rfl
@[simp] theorem State.setIdx_result (st : State) (v : BitVec 8) : (st.setIdx v).result = st.result := rfl
@[simp] theorem State.setIdx_mem (st : State) (v : BitVec 8) : (st.setIdx v).mem = st.mem := rfl
@[simp] theorem State.setIdx_readable (st : State) (v : BitVec 8) : (st.setIdx v).readable = st.readable := rfl
@[simp] theorem State.setIdx_byteOrder (st : State) (v : BitVec 8) : (st.setIdx v).byteOrder = st.byteOrder := rfl
@[simp] theorem State.setIdx_baseSet (st : State) (v : BitVec 8) : (st.setIdx v).baseSet = st.baseSet := rfl
@[simp] theorem State.setIdx_lenSet (st : State) (v : BitVec 8) : (st.setIdx v).lenSet = st.lenSet := rfl
@[simp] theorem State.setIdx_hostMoves (st : State) (v : BitVec 8) : (st.setIdx v).hostMoves = st.hostMoves := rfl
@[simp] theorem State.setIdx_hostReplies (st : State) (v : BitVec 8) : (st.setIdx v).hostReplies = st.hostReplies := rfl
@[simp] theorem State.setIdx_draws (st : State) (v : BitVec 8) : (st.setIdx v).draws = st.draws := rfl

@[simp] theorem State.setM_x (st : State) (v : BitVec 64) : (st.setM v).x = st.x := rfl
@[simp] theorem State.setM_b (st : State) (v : BitVec 64) : (st.setM v).b = st.b := rfl
@[simp] theorem State.setM_idx (st : State) (v : BitVec 64) : (st.setM v).idx = st.idx := rfl
@[simp] theorem State.setM_m (st : State) (v : BitVec 64) : (st.setM v).m = v := rfl
@[simp] theorem State.setM_s (st : State) (v : BitVec 64) : (st.setM v).s = st.s := rfl
@[simp] theorem State.setM_acc (st : State) (v : BitVec 64) : (st.setM v).acc = st.acc := rfl
@[simp] theorem State.setM_w (st : State) (v : BitVec 64) : (st.setM v).w = st.w := rfl
@[simp] theorem State.setM_phase (st : State) (v : BitVec 64) : (st.setM v).phase = st.phase := rfl
@[simp] theorem State.setM_table (st : State) (v : BitVec 64) : (st.setM v).table = st.table := rfl
@[simp] theorem State.setM_base (st : State) (v : BitVec 64) : (st.setM v).base = st.base := rfl
@[simp] theorem State.setM_len (st : State) (v : BitVec 64) : (st.setM v).len = st.len := rfl
@[simp] theorem State.setM_state (st : State) (v : BitVec 64) : (st.setM v).state = st.state := rfl
@[simp] theorem State.setM_err (st : State) (v : BitVec 64) : (st.setM v).err = st.err := rfl
@[simp] theorem State.setM_result (st : State) (v : BitVec 64) : (st.setM v).result = st.result := rfl
@[simp] theorem State.setM_mem (st : State) (v : BitVec 64) : (st.setM v).mem = st.mem := rfl
@[simp] theorem State.setM_readable (st : State) (v : BitVec 64) : (st.setM v).readable = st.readable := rfl
@[simp] theorem State.setM_byteOrder (st : State) (v : BitVec 64) : (st.setM v).byteOrder = st.byteOrder := rfl
@[simp] theorem State.setM_baseSet (st : State) (v : BitVec 64) : (st.setM v).baseSet = st.baseSet := rfl
@[simp] theorem State.setM_lenSet (st : State) (v : BitVec 64) : (st.setM v).lenSet = st.lenSet := rfl
@[simp] theorem State.setM_hostMoves (st : State) (v : BitVec 64) : (st.setM v).hostMoves = st.hostMoves := rfl
@[simp] theorem State.setM_hostReplies (st : State) (v : BitVec 64) : (st.setM v).hostReplies = st.hostReplies := rfl
@[simp] theorem State.setM_draws (st : State) (v : BitVec 64) : (st.setM v).draws = st.draws := rfl

@[simp] theorem State.setS_x (st : State) (v : BitVec 64) : (st.setS v).x = st.x := rfl
@[simp] theorem State.setS_b (st : State) (v : BitVec 64) : (st.setS v).b = st.b := rfl
@[simp] theorem State.setS_idx (st : State) (v : BitVec 64) : (st.setS v).idx = st.idx := rfl
@[simp] theorem State.setS_m (st : State) (v : BitVec 64) : (st.setS v).m = st.m := rfl
@[simp] theorem State.setS_s (st : State) (v : BitVec 64) : (st.setS v).s = v := rfl
@[simp] theorem State.setS_acc (st : State) (v : BitVec 64) : (st.setS v).acc = st.acc := rfl
@[simp] theorem State.setS_w (st : State) (v : BitVec 64) : (st.setS v).w = st.w := rfl
@[simp] theorem State.setS_phase (st : State) (v : BitVec 64) : (st.setS v).phase = st.phase := rfl
@[simp] theorem State.setS_table (st : State) (v : BitVec 64) : (st.setS v).table = st.table := rfl
@[simp] theorem State.setS_base (st : State) (v : BitVec 64) : (st.setS v).base = st.base := rfl
@[simp] theorem State.setS_len (st : State) (v : BitVec 64) : (st.setS v).len = st.len := rfl
@[simp] theorem State.setS_state (st : State) (v : BitVec 64) : (st.setS v).state = st.state := rfl
@[simp] theorem State.setS_err (st : State) (v : BitVec 64) : (st.setS v).err = st.err := rfl
@[simp] theorem State.setS_result (st : State) (v : BitVec 64) : (st.setS v).result = st.result := rfl
@[simp] theorem State.setS_mem (st : State) (v : BitVec 64) : (st.setS v).mem = st.mem := rfl
@[simp] theorem State.setS_readable (st : State) (v : BitVec 64) : (st.setS v).readable = st.readable := rfl
@[simp] theorem State.setS_byteOrder (st : State) (v : BitVec 64) : (st.setS v).byteOrder = st.byteOrder := rfl
@[simp] theorem State.setS_baseSet (st : State) (v : BitVec 64) : (st.setS v).baseSet = st.baseSet := rfl
@[simp] theorem State.setS_lenSet (st : State) (v : BitVec 64) : (st.setS v).lenSet = st.lenSet := rfl
@[simp] theorem State.setS_hostMoves (st : State) (v : BitVec 64) : (st.setS v).hostMoves = st.hostMoves := rfl
@[simp] theorem State.setS_hostReplies (st : State) (v : BitVec 64) : (st.setS v).hostReplies = st.hostReplies := rfl
@[simp] theorem State.setS_draws (st : State) (v : BitVec 64) : (st.setS v).draws = st.draws := rfl

@[simp] theorem State.setAcc_x (st : State) (v : BitVec 64) : (st.setAcc v).x = st.x := rfl
@[simp] theorem State.setAcc_b (st : State) (v : BitVec 64) : (st.setAcc v).b = st.b := rfl
@[simp] theorem State.setAcc_idx (st : State) (v : BitVec 64) : (st.setAcc v).idx = st.idx := rfl
@[simp] theorem State.setAcc_m (st : State) (v : BitVec 64) : (st.setAcc v).m = st.m := rfl
@[simp] theorem State.setAcc_s (st : State) (v : BitVec 64) : (st.setAcc v).s = st.s := rfl
@[simp] theorem State.setAcc_acc (st : State) (v : BitVec 64) : (st.setAcc v).acc = v := rfl
@[simp] theorem State.setAcc_w (st : State) (v : BitVec 64) : (st.setAcc v).w = st.w := rfl
@[simp] theorem State.setAcc_phase (st : State) (v : BitVec 64) : (st.setAcc v).phase = st.phase := rfl
@[simp] theorem State.setAcc_table (st : State) (v : BitVec 64) : (st.setAcc v).table = st.table := rfl
@[simp] theorem State.setAcc_base (st : State) (v : BitVec 64) : (st.setAcc v).base = st.base := rfl
@[simp] theorem State.setAcc_len (st : State) (v : BitVec 64) : (st.setAcc v).len = st.len := rfl
@[simp] theorem State.setAcc_state (st : State) (v : BitVec 64) : (st.setAcc v).state = st.state := rfl
@[simp] theorem State.setAcc_err (st : State) (v : BitVec 64) : (st.setAcc v).err = st.err := rfl
@[simp] theorem State.setAcc_result (st : State) (v : BitVec 64) : (st.setAcc v).result = st.result := rfl
@[simp] theorem State.setAcc_mem (st : State) (v : BitVec 64) : (st.setAcc v).mem = st.mem := rfl
@[simp] theorem State.setAcc_readable (st : State) (v : BitVec 64) : (st.setAcc v).readable = st.readable := rfl
@[simp] theorem State.setAcc_byteOrder (st : State) (v : BitVec 64) : (st.setAcc v).byteOrder = st.byteOrder := rfl
@[simp] theorem State.setAcc_baseSet (st : State) (v : BitVec 64) : (st.setAcc v).baseSet = st.baseSet := rfl
@[simp] theorem State.setAcc_lenSet (st : State) (v : BitVec 64) : (st.setAcc v).lenSet = st.lenSet := rfl
@[simp] theorem State.setAcc_hostMoves (st : State) (v : BitVec 64) : (st.setAcc v).hostMoves = st.hostMoves := rfl
@[simp] theorem State.setAcc_hostReplies (st : State) (v : BitVec 64) : (st.setAcc v).hostReplies = st.hostReplies := rfl
@[simp] theorem State.setAcc_draws (st : State) (v : BitVec 64) : (st.setAcc v).draws = st.draws := rfl

@[simp] theorem State.setW_x (st : State) (v : BitVec 61) : (st.setW v).x = st.x := rfl
@[simp] theorem State.setW_b (st : State) (v : BitVec 61) : (st.setW v).b = st.b := rfl
@[simp] theorem State.setW_idx (st : State) (v : BitVec 61) : (st.setW v).idx = st.idx := rfl
@[simp] theorem State.setW_m (st : State) (v : BitVec 61) : (st.setW v).m = st.m := rfl
@[simp] theorem State.setW_s (st : State) (v : BitVec 61) : (st.setW v).s = st.s := rfl
@[simp] theorem State.setW_acc (st : State) (v : BitVec 61) : (st.setW v).acc = st.acc := rfl
@[simp] theorem State.setW_w (st : State) (v : BitVec 61) : (st.setW v).w = v := rfl
@[simp] theorem State.setW_phase (st : State) (v : BitVec 61) : (st.setW v).phase = st.phase := rfl
@[simp] theorem State.setW_table (st : State) (v : BitVec 61) : (st.setW v).table = st.table := rfl
@[simp] theorem State.setW_base (st : State) (v : BitVec 61) : (st.setW v).base = st.base := rfl
@[simp] theorem State.setW_len (st : State) (v : BitVec 61) : (st.setW v).len = st.len := rfl
@[simp] theorem State.setW_state (st : State) (v : BitVec 61) : (st.setW v).state = st.state := rfl
@[simp] theorem State.setW_err (st : State) (v : BitVec 61) : (st.setW v).err = st.err := rfl
@[simp] theorem State.setW_result (st : State) (v : BitVec 61) : (st.setW v).result = st.result := rfl
@[simp] theorem State.setW_mem (st : State) (v : BitVec 61) : (st.setW v).mem = st.mem := rfl
@[simp] theorem State.setW_readable (st : State) (v : BitVec 61) : (st.setW v).readable = st.readable := rfl
@[simp] theorem State.setW_byteOrder (st : State) (v : BitVec 61) : (st.setW v).byteOrder = st.byteOrder := rfl
@[simp] theorem State.setW_baseSet (st : State) (v : BitVec 61) : (st.setW v).baseSet = st.baseSet := rfl
@[simp] theorem State.setW_lenSet (st : State) (v : BitVec 61) : (st.setW v).lenSet = st.lenSet := rfl
@[simp] theorem State.setW_hostMoves (st : State) (v : BitVec 61) : (st.setW v).hostMoves = st.hostMoves := rfl
@[simp] theorem State.setW_hostReplies (st : State) (v : BitVec 61) : (st.setW v).hostReplies = st.hostReplies := rfl
@[simp] theorem State.setW_draws (st : State) (v : BitVec 61) : (st.setW v).draws = st.draws := rfl

@[simp] theorem State.setPhase_x (st : State) (v : BitVec 5) : (st.setPhase v).x = st.x := rfl
@[simp] theorem State.setPhase_b (st : State) (v : BitVec 5) : (st.setPhase v).b = st.b := rfl
@[simp] theorem State.setPhase_idx (st : State) (v : BitVec 5) : (st.setPhase v).idx = st.idx := rfl
@[simp] theorem State.setPhase_m (st : State) (v : BitVec 5) : (st.setPhase v).m = st.m := rfl
@[simp] theorem State.setPhase_s (st : State) (v : BitVec 5) : (st.setPhase v).s = st.s := rfl
@[simp] theorem State.setPhase_acc (st : State) (v : BitVec 5) : (st.setPhase v).acc = st.acc := rfl
@[simp] theorem State.setPhase_w (st : State) (v : BitVec 5) : (st.setPhase v).w = st.w := rfl
@[simp] theorem State.setPhase_phase (st : State) (v : BitVec 5) : (st.setPhase v).phase = v := rfl
@[simp] theorem State.setPhase_table (st : State) (v : BitVec 5) : (st.setPhase v).table = st.table := rfl
@[simp] theorem State.setPhase_base (st : State) (v : BitVec 5) : (st.setPhase v).base = st.base := rfl
@[simp] theorem State.setPhase_len (st : State) (v : BitVec 5) : (st.setPhase v).len = st.len := rfl
@[simp] theorem State.setPhase_state (st : State) (v : BitVec 5) : (st.setPhase v).state = st.state := rfl
@[simp] theorem State.setPhase_err (st : State) (v : BitVec 5) : (st.setPhase v).err = st.err := rfl
@[simp] theorem State.setPhase_result (st : State) (v : BitVec 5) : (st.setPhase v).result = st.result := rfl
@[simp] theorem State.setPhase_mem (st : State) (v : BitVec 5) : (st.setPhase v).mem = st.mem := rfl
@[simp] theorem State.setPhase_readable (st : State) (v : BitVec 5) : (st.setPhase v).readable = st.readable := rfl
@[simp] theorem State.setPhase_byteOrder (st : State) (v : BitVec 5) : (st.setPhase v).byteOrder = st.byteOrder := rfl
@[simp] theorem State.setPhase_baseSet (st : State) (v : BitVec 5) : (st.setPhase v).baseSet = st.baseSet := rfl
@[simp] theorem State.setPhase_lenSet (st : State) (v : BitVec 5) : (st.setPhase v).lenSet = st.lenSet := rfl
@[simp] theorem State.setPhase_hostMoves (st : State) (v : BitVec 5) : (st.setPhase v).hostMoves = st.hostMoves := rfl
@[simp] theorem State.setPhase_hostReplies (st : State) (v : BitVec 5) : (st.setPhase v).hostReplies = st.hostReplies := rfl
@[simp] theorem State.setPhase_draws (st : State) (v : BitVec 5) : (st.setPhase v).draws = st.draws := rfl

@[simp] theorem State.setTable_x (st : State) (v : Vector (BitVec 64) 256) : (st.setTable v).x = st.x := rfl
@[simp] theorem State.setTable_b (st : State) (v : Vector (BitVec 64) 256) : (st.setTable v).b = st.b := rfl
@[simp] theorem State.setTable_idx (st : State) (v : Vector (BitVec 64) 256) : (st.setTable v).idx = st.idx := rfl
@[simp] theorem State.setTable_m (st : State) (v : Vector (BitVec 64) 256) : (st.setTable v).m = st.m := rfl
@[simp] theorem State.setTable_s (st : State) (v : Vector (BitVec 64) 256) : (st.setTable v).s = st.s := rfl
@[simp] theorem State.setTable_acc (st : State) (v : Vector (BitVec 64) 256) : (st.setTable v).acc = st.acc := rfl
@[simp] theorem State.setTable_w (st : State) (v : Vector (BitVec 64) 256) : (st.setTable v).w = st.w := rfl
@[simp] theorem State.setTable_phase (st : State) (v : Vector (BitVec 64) 256) : (st.setTable v).phase = st.phase := rfl
@[simp] theorem State.setTable_table (st : State) (v : Vector (BitVec 64) 256) : (st.setTable v).table = v := rfl
@[simp] theorem State.setTable_base (st : State) (v : Vector (BitVec 64) 256) : (st.setTable v).base = st.base := rfl
@[simp] theorem State.setTable_len (st : State) (v : Vector (BitVec 64) 256) : (st.setTable v).len = st.len := rfl
@[simp] theorem State.setTable_state (st : State) (v : Vector (BitVec 64) 256) : (st.setTable v).state = st.state := rfl
@[simp] theorem State.setTable_err (st : State) (v : Vector (BitVec 64) 256) : (st.setTable v).err = st.err := rfl
@[simp] theorem State.setTable_result (st : State) (v : Vector (BitVec 64) 256) : (st.setTable v).result = st.result := rfl
@[simp] theorem State.setTable_mem (st : State) (v : Vector (BitVec 64) 256) : (st.setTable v).mem = st.mem := rfl
@[simp] theorem State.setTable_readable (st : State) (v : Vector (BitVec 64) 256) : (st.setTable v).readable = st.readable := rfl
@[simp] theorem State.setTable_byteOrder (st : State) (v : Vector (BitVec 64) 256) : (st.setTable v).byteOrder = st.byteOrder := rfl
@[simp] theorem State.setTable_baseSet (st : State) (v : Vector (BitVec 64) 256) : (st.setTable v).baseSet = st.baseSet := rfl
@[simp] theorem State.setTable_lenSet (st : State) (v : Vector (BitVec 64) 256) : (st.setTable v).lenSet = st.lenSet := rfl
@[simp] theorem State.setTable_hostMoves (st : State) (v : Vector (BitVec 64) 256) : (st.setTable v).hostMoves = st.hostMoves := rfl
@[simp] theorem State.setTable_hostReplies (st : State) (v : Vector (BitVec 64) 256) : (st.setTable v).hostReplies = st.hostReplies := rfl
@[simp] theorem State.setTable_draws (st : State) (v : Vector (BitVec 64) 256) : (st.setTable v).draws = st.draws := rfl

@[simp] theorem State.setCallState_x (st : State) (v : CallState) : (st.setCallState v).x = st.x := rfl
@[simp] theorem State.setCallState_b (st : State) (v : CallState) : (st.setCallState v).b = st.b := rfl
@[simp] theorem State.setCallState_idx (st : State) (v : CallState) : (st.setCallState v).idx = st.idx := rfl
@[simp] theorem State.setCallState_m (st : State) (v : CallState) : (st.setCallState v).m = st.m := rfl
@[simp] theorem State.setCallState_s (st : State) (v : CallState) : (st.setCallState v).s = st.s := rfl
@[simp] theorem State.setCallState_acc (st : State) (v : CallState) : (st.setCallState v).acc = st.acc := rfl
@[simp] theorem State.setCallState_w (st : State) (v : CallState) : (st.setCallState v).w = st.w := rfl
@[simp] theorem State.setCallState_phase (st : State) (v : CallState) : (st.setCallState v).phase = st.phase := rfl
@[simp] theorem State.setCallState_table (st : State) (v : CallState) : (st.setCallState v).table = st.table := rfl
@[simp] theorem State.setCallState_base (st : State) (v : CallState) : (st.setCallState v).base = st.base := rfl
@[simp] theorem State.setCallState_len (st : State) (v : CallState) : (st.setCallState v).len = st.len := rfl
@[simp] theorem State.setCallState_state (st : State) (v : CallState) : (st.setCallState v).state = v := rfl
@[simp] theorem State.setCallState_err (st : State) (v : CallState) : (st.setCallState v).err = st.err := rfl
@[simp] theorem State.setCallState_result (st : State) (v : CallState) : (st.setCallState v).result = st.result := rfl
@[simp] theorem State.setCallState_mem (st : State) (v : CallState) : (st.setCallState v).mem = st.mem := rfl
@[simp] theorem State.setCallState_readable (st : State) (v : CallState) : (st.setCallState v).readable = st.readable := rfl
@[simp] theorem State.setCallState_byteOrder (st : State) (v : CallState) : (st.setCallState v).byteOrder = st.byteOrder := rfl
@[simp] theorem State.setCallState_baseSet (st : State) (v : CallState) : (st.setCallState v).baseSet = st.baseSet := rfl
@[simp] theorem State.setCallState_lenSet (st : State) (v : CallState) : (st.setCallState v).lenSet = st.lenSet := rfl
@[simp] theorem State.setCallState_hostMoves (st : State) (v : CallState) : (st.setCallState v).hostMoves = st.hostMoves := rfl
@[simp] theorem State.setCallState_hostReplies (st : State) (v : CallState) : (st.setCallState v).hostReplies = st.hostReplies := rfl
@[simp] theorem State.setCallState_draws (st : State) (v : CallState) : (st.setCallState v).draws = st.draws := rfl

@[simp] theorem State.setErr_x (st : State) (v : BitVec 4) : (st.setErr v).x = st.x := rfl
@[simp] theorem State.setErr_b (st : State) (v : BitVec 4) : (st.setErr v).b = st.b := rfl
@[simp] theorem State.setErr_idx (st : State) (v : BitVec 4) : (st.setErr v).idx = st.idx := rfl
@[simp] theorem State.setErr_m (st : State) (v : BitVec 4) : (st.setErr v).m = st.m := rfl
@[simp] theorem State.setErr_s (st : State) (v : BitVec 4) : (st.setErr v).s = st.s := rfl
@[simp] theorem State.setErr_acc (st : State) (v : BitVec 4) : (st.setErr v).acc = st.acc := rfl
@[simp] theorem State.setErr_w (st : State) (v : BitVec 4) : (st.setErr v).w = st.w := rfl
@[simp] theorem State.setErr_phase (st : State) (v : BitVec 4) : (st.setErr v).phase = st.phase := rfl
@[simp] theorem State.setErr_table (st : State) (v : BitVec 4) : (st.setErr v).table = st.table := rfl
@[simp] theorem State.setErr_base (st : State) (v : BitVec 4) : (st.setErr v).base = st.base := rfl
@[simp] theorem State.setErr_len (st : State) (v : BitVec 4) : (st.setErr v).len = st.len := rfl
@[simp] theorem State.setErr_state (st : State) (v : BitVec 4) : (st.setErr v).state = st.state := rfl
@[simp] theorem State.setErr_err (st : State) (v : BitVec 4) : (st.setErr v).err = v := rfl
@[simp] theorem State.setErr_result (st : State) (v : BitVec 4) : (st.setErr v).result = st.result := rfl
@[simp] theorem State.setErr_mem (st : State) (v : BitVec 4) : (st.setErr v).mem = st.mem := rfl
@[simp] theorem State.setErr_readable (st : State) (v : BitVec 4) : (st.setErr v).readable = st.readable := rfl
@[simp] theorem State.setErr_byteOrder (st : State) (v : BitVec 4) : (st.setErr v).byteOrder = st.byteOrder := rfl
@[simp] theorem State.setErr_baseSet (st : State) (v : BitVec 4) : (st.setErr v).baseSet = st.baseSet := rfl
@[simp] theorem State.setErr_lenSet (st : State) (v : BitVec 4) : (st.setErr v).lenSet = st.lenSet := rfl
@[simp] theorem State.setErr_hostMoves (st : State) (v : BitVec 4) : (st.setErr v).hostMoves = st.hostMoves := rfl
@[simp] theorem State.setErr_hostReplies (st : State) (v : BitVec 4) : (st.setErr v).hostReplies = st.hostReplies := rfl
@[simp] theorem State.setErr_draws (st : State) (v : BitVec 4) : (st.setErr v).draws = st.draws := rfl

@[simp] theorem State.setResult_x (st : State) (v : BitVec 64) : (st.setResult v).x = st.x := rfl
@[simp] theorem State.setResult_b (st : State) (v : BitVec 64) : (st.setResult v).b = st.b := rfl
@[simp] theorem State.setResult_idx (st : State) (v : BitVec 64) : (st.setResult v).idx = st.idx := rfl
@[simp] theorem State.setResult_m (st : State) (v : BitVec 64) : (st.setResult v).m = st.m := rfl
@[simp] theorem State.setResult_s (st : State) (v : BitVec 64) : (st.setResult v).s = st.s := rfl
@[simp] theorem State.setResult_acc (st : State) (v : BitVec 64) : (st.setResult v).acc = st.acc := rfl
@[simp] theorem State.setResult_w (st : State) (v : BitVec 64) : (st.setResult v).w = st.w := rfl
@[simp] theorem State.setResult_phase (st : State) (v : BitVec 64) : (st.setResult v).phase = st.phase := rfl
@[simp] theorem State.setResult_table (st : State) (v : BitVec 64) : (st.setResult v).table = st.table := rfl
@[simp] theorem State.setResult_base (st : State) (v : BitVec 64) : (st.setResult v).base = st.base := rfl
@[simp] theorem State.setResult_len (st : State) (v : BitVec 64) : (st.setResult v).len = st.len := rfl
@[simp] theorem State.setResult_state (st : State) (v : BitVec 64) : (st.setResult v).state = st.state := rfl
@[simp] theorem State.setResult_err (st : State) (v : BitVec 64) : (st.setResult v).err = st.err := rfl
@[simp] theorem State.setResult_result (st : State) (v : BitVec 64) : (st.setResult v).result = v := rfl
@[simp] theorem State.setResult_mem (st : State) (v : BitVec 64) : (st.setResult v).mem = st.mem := rfl
@[simp] theorem State.setResult_readable (st : State) (v : BitVec 64) : (st.setResult v).readable = st.readable := rfl
@[simp] theorem State.setResult_byteOrder (st : State) (v : BitVec 64) : (st.setResult v).byteOrder = st.byteOrder := rfl
@[simp] theorem State.setResult_baseSet (st : State) (v : BitVec 64) : (st.setResult v).baseSet = st.baseSet := rfl
@[simp] theorem State.setResult_lenSet (st : State) (v : BitVec 64) : (st.setResult v).lenSet = st.lenSet := rfl
@[simp] theorem State.setResult_hostMoves (st : State) (v : BitVec 64) : (st.setResult v).hostMoves = st.hostMoves := rfl
@[simp] theorem State.setResult_hostReplies (st : State) (v : BitVec 64) : (st.setResult v).hostReplies = st.hostReplies := rfl
@[simp] theorem State.setResult_draws (st : State) (v : BitVec 64) : (st.setResult v).draws = st.draws := rfl

@[simp] theorem State.setBase_x (st : State) (v : BitVec 64) : (st.setBase v).x = st.x := rfl
@[simp] theorem State.setBase_b (st : State) (v : BitVec 64) : (st.setBase v).b = st.b := rfl
@[simp] theorem State.setBase_idx (st : State) (v : BitVec 64) : (st.setBase v).idx = st.idx := rfl
@[simp] theorem State.setBase_m (st : State) (v : BitVec 64) : (st.setBase v).m = st.m := rfl
@[simp] theorem State.setBase_s (st : State) (v : BitVec 64) : (st.setBase v).s = st.s := rfl
@[simp] theorem State.setBase_acc (st : State) (v : BitVec 64) : (st.setBase v).acc = st.acc := rfl
@[simp] theorem State.setBase_w (st : State) (v : BitVec 64) : (st.setBase v).w = st.w := rfl
@[simp] theorem State.setBase_phase (st : State) (v : BitVec 64) : (st.setBase v).phase = st.phase := rfl
@[simp] theorem State.setBase_table (st : State) (v : BitVec 64) : (st.setBase v).table = st.table := rfl
@[simp] theorem State.setBase_base (st : State) (v : BitVec 64) : (st.setBase v).base = v := rfl
@[simp] theorem State.setBase_len (st : State) (v : BitVec 64) : (st.setBase v).len = st.len := rfl
@[simp] theorem State.setBase_state (st : State) (v : BitVec 64) : (st.setBase v).state = st.state := rfl
@[simp] theorem State.setBase_err (st : State) (v : BitVec 64) : (st.setBase v).err = st.err := rfl
@[simp] theorem State.setBase_result (st : State) (v : BitVec 64) : (st.setBase v).result = st.result := rfl
@[simp] theorem State.setBase_mem (st : State) (v : BitVec 64) : (st.setBase v).mem = st.mem := rfl
@[simp] theorem State.setBase_readable (st : State) (v : BitVec 64) : (st.setBase v).readable = st.readable := rfl
@[simp] theorem State.setBase_byteOrder (st : State) (v : BitVec 64) : (st.setBase v).byteOrder = st.byteOrder := rfl
@[simp] theorem State.setBase_baseSet (st : State) (v : BitVec 64) : (st.setBase v).baseSet = true := rfl
@[simp] theorem State.setBase_lenSet (st : State) (v : BitVec 64) : (st.setBase v).lenSet = st.lenSet := rfl
@[simp] theorem State.setBase_hostMoves (st : State) (v : BitVec 64) : (st.setBase v).hostMoves = st.hostMoves := rfl
@[simp] theorem State.setBase_hostReplies (st : State) (v : BitVec 64) : (st.setBase v).hostReplies = st.hostReplies := rfl
@[simp] theorem State.setBase_draws (st : State) (v : BitVec 64) : (st.setBase v).draws = st.draws := rfl

@[simp] theorem State.setLen_x (st : State) (v : BitVec 64) : (st.setLen v).x = st.x := rfl
@[simp] theorem State.setLen_b (st : State) (v : BitVec 64) : (st.setLen v).b = st.b := rfl
@[simp] theorem State.setLen_idx (st : State) (v : BitVec 64) : (st.setLen v).idx = st.idx := rfl
@[simp] theorem State.setLen_m (st : State) (v : BitVec 64) : (st.setLen v).m = st.m := rfl
@[simp] theorem State.setLen_s (st : State) (v : BitVec 64) : (st.setLen v).s = st.s := rfl
@[simp] theorem State.setLen_acc (st : State) (v : BitVec 64) : (st.setLen v).acc = st.acc := rfl
@[simp] theorem State.setLen_w (st : State) (v : BitVec 64) : (st.setLen v).w = st.w := rfl
@[simp] theorem State.setLen_phase (st : State) (v : BitVec 64) : (st.setLen v).phase = st.phase := rfl
@[simp] theorem State.setLen_table (st : State) (v : BitVec 64) : (st.setLen v).table = st.table := rfl
@[simp] theorem State.setLen_base (st : State) (v : BitVec 64) : (st.setLen v).base = st.base := rfl
@[simp] theorem State.setLen_len (st : State) (v : BitVec 64) : (st.setLen v).len = v := rfl
@[simp] theorem State.setLen_state (st : State) (v : BitVec 64) : (st.setLen v).state = st.state := rfl
@[simp] theorem State.setLen_err (st : State) (v : BitVec 64) : (st.setLen v).err = st.err := rfl
@[simp] theorem State.setLen_result (st : State) (v : BitVec 64) : (st.setLen v).result = st.result := rfl
@[simp] theorem State.setLen_mem (st : State) (v : BitVec 64) : (st.setLen v).mem = st.mem := rfl
@[simp] theorem State.setLen_readable (st : State) (v : BitVec 64) : (st.setLen v).readable = st.readable := rfl
@[simp] theorem State.setLen_byteOrder (st : State) (v : BitVec 64) : (st.setLen v).byteOrder = st.byteOrder := rfl
@[simp] theorem State.setLen_baseSet (st : State) (v : BitVec 64) : (st.setLen v).baseSet = st.baseSet := rfl
@[simp] theorem State.setLen_lenSet (st : State) (v : BitVec 64) : (st.setLen v).lenSet = true := rfl
@[simp] theorem State.setLen_hostMoves (st : State) (v : BitVec 64) : (st.setLen v).hostMoves = st.hostMoves := rfl
@[simp] theorem State.setLen_hostReplies (st : State) (v : BitVec 64) : (st.setLen v).hostReplies = st.hostReplies := rfl
@[simp] theorem State.setLen_draws (st : State) (v : BitVec 64) : (st.setLen v).draws = st.draws := rfl

@[simp] theorem State.setMem_x (st : State) (v : Memory) : (st.setMem v).x = st.x := rfl
@[simp] theorem State.setMem_b (st : State) (v : Memory) : (st.setMem v).b = st.b := rfl
@[simp] theorem State.setMem_idx (st : State) (v : Memory) : (st.setMem v).idx = st.idx := rfl
@[simp] theorem State.setMem_m (st : State) (v : Memory) : (st.setMem v).m = st.m := rfl
@[simp] theorem State.setMem_s (st : State) (v : Memory) : (st.setMem v).s = st.s := rfl
@[simp] theorem State.setMem_acc (st : State) (v : Memory) : (st.setMem v).acc = st.acc := rfl
@[simp] theorem State.setMem_w (st : State) (v : Memory) : (st.setMem v).w = st.w := rfl
@[simp] theorem State.setMem_phase (st : State) (v : Memory) : (st.setMem v).phase = st.phase := rfl
@[simp] theorem State.setMem_table (st : State) (v : Memory) : (st.setMem v).table = st.table := rfl
@[simp] theorem State.setMem_base (st : State) (v : Memory) : (st.setMem v).base = st.base := rfl
@[simp] theorem State.setMem_len (st : State) (v : Memory) : (st.setMem v).len = st.len := rfl
@[simp] theorem State.setMem_state (st : State) (v : Memory) : (st.setMem v).state = st.state := rfl
@[simp] theorem State.setMem_err (st : State) (v : Memory) : (st.setMem v).err = st.err := rfl
@[simp] theorem State.setMem_result (st : State) (v : Memory) : (st.setMem v).result = st.result := rfl
@[simp] theorem State.setMem_mem (st : State) (v : Memory) : (st.setMem v).mem = v := rfl
@[simp] theorem State.setMem_readable (st : State) (v : Memory) : (st.setMem v).readable = st.readable := rfl
@[simp] theorem State.setMem_byteOrder (st : State) (v : Memory) : (st.setMem v).byteOrder = st.byteOrder := rfl
@[simp] theorem State.setMem_baseSet (st : State) (v : Memory) : (st.setMem v).baseSet = st.baseSet := rfl
@[simp] theorem State.setMem_lenSet (st : State) (v : Memory) : (st.setMem v).lenSet = st.lenSet := rfl
@[simp] theorem State.setMem_hostMoves (st : State) (v : Memory) : (st.setMem v).hostMoves = st.hostMoves := rfl
@[simp] theorem State.setMem_hostReplies (st : State) (v : Memory) : (st.setMem v).hostReplies = st.hostReplies := rfl
@[simp] theorem State.setMem_draws (st : State) (v : Memory) : (st.setMem v).draws = st.draws := rfl

@[simp] theorem State.setHostMoves_x (st : State) (v : List HostMove) : (st.setHostMoves v).x = st.x := rfl
@[simp] theorem State.setHostMoves_b (st : State) (v : List HostMove) : (st.setHostMoves v).b = st.b := rfl
@[simp] theorem State.setHostMoves_idx (st : State) (v : List HostMove) : (st.setHostMoves v).idx = st.idx := rfl
@[simp] theorem State.setHostMoves_m (st : State) (v : List HostMove) : (st.setHostMoves v).m = st.m := rfl
@[simp] theorem State.setHostMoves_s (st : State) (v : List HostMove) : (st.setHostMoves v).s = st.s := rfl
@[simp] theorem State.setHostMoves_acc (st : State) (v : List HostMove) : (st.setHostMoves v).acc = st.acc := rfl
@[simp] theorem State.setHostMoves_w (st : State) (v : List HostMove) : (st.setHostMoves v).w = st.w := rfl
@[simp] theorem State.setHostMoves_phase (st : State) (v : List HostMove) : (st.setHostMoves v).phase = st.phase := rfl
@[simp] theorem State.setHostMoves_table (st : State) (v : List HostMove) : (st.setHostMoves v).table = st.table := rfl
@[simp] theorem State.setHostMoves_base (st : State) (v : List HostMove) : (st.setHostMoves v).base = st.base := rfl
@[simp] theorem State.setHostMoves_len (st : State) (v : List HostMove) : (st.setHostMoves v).len = st.len := rfl
@[simp] theorem State.setHostMoves_state (st : State) (v : List HostMove) : (st.setHostMoves v).state = st.state := rfl
@[simp] theorem State.setHostMoves_err (st : State) (v : List HostMove) : (st.setHostMoves v).err = st.err := rfl
@[simp] theorem State.setHostMoves_result (st : State) (v : List HostMove) : (st.setHostMoves v).result = st.result := rfl
@[simp] theorem State.setHostMoves_mem (st : State) (v : List HostMove) : (st.setHostMoves v).mem = st.mem := rfl
@[simp] theorem State.setHostMoves_readable (st : State) (v : List HostMove) : (st.setHostMoves v).readable = st.readable := rfl
@[simp] theorem State.setHostMoves_byteOrder (st : State) (v : List HostMove) : (st.setHostMoves v).byteOrder = st.byteOrder := rfl
@[simp] theorem State.setHostMoves_baseSet (st : State) (v : List HostMove) : (st.setHostMoves v).baseSet = st.baseSet := rfl
@[simp] theorem State.setHostMoves_lenSet (st : State) (v : List HostMove) : (st.setHostMoves v).lenSet = st.lenSet := rfl
@[simp] theorem State.setHostMoves_hostMoves (st : State) (v : List HostMove) : (st.setHostMoves v).hostMoves = v := rfl
@[simp] theorem State.setHostMoves_hostReplies (st : State) (v : List HostMove) : (st.setHostMoves v).hostReplies = st.hostReplies := rfl
@[simp] theorem State.setHostMoves_draws (st : State) (v : List HostMove) : (st.setHostMoves v).draws = st.draws := rfl

@[simp] theorem State.pushReply_x (st : State) (v : HostReply) : (st.pushReply v).x = st.x := rfl
@[simp] theorem State.pushReply_b (st : State) (v : HostReply) : (st.pushReply v).b = st.b := rfl
@[simp] theorem State.pushReply_idx (st : State) (v : HostReply) : (st.pushReply v).idx = st.idx := rfl
@[simp] theorem State.pushReply_m (st : State) (v : HostReply) : (st.pushReply v).m = st.m := rfl
@[simp] theorem State.pushReply_s (st : State) (v : HostReply) : (st.pushReply v).s = st.s := rfl
@[simp] theorem State.pushReply_acc (st : State) (v : HostReply) : (st.pushReply v).acc = st.acc := rfl
@[simp] theorem State.pushReply_w (st : State) (v : HostReply) : (st.pushReply v).w = st.w := rfl
@[simp] theorem State.pushReply_phase (st : State) (v : HostReply) : (st.pushReply v).phase = st.phase := rfl
@[simp] theorem State.pushReply_table (st : State) (v : HostReply) : (st.pushReply v).table = st.table := rfl
@[simp] theorem State.pushReply_base (st : State) (v : HostReply) : (st.pushReply v).base = st.base := rfl
@[simp] theorem State.pushReply_len (st : State) (v : HostReply) : (st.pushReply v).len = st.len := rfl
@[simp] theorem State.pushReply_state (st : State) (v : HostReply) : (st.pushReply v).state = st.state := rfl
@[simp] theorem State.pushReply_err (st : State) (v : HostReply) : (st.pushReply v).err = st.err := rfl
@[simp] theorem State.pushReply_result (st : State) (v : HostReply) : (st.pushReply v).result = st.result := rfl
@[simp] theorem State.pushReply_mem (st : State) (v : HostReply) : (st.pushReply v).mem = st.mem := rfl
@[simp] theorem State.pushReply_readable (st : State) (v : HostReply) : (st.pushReply v).readable = st.readable := rfl
@[simp] theorem State.pushReply_byteOrder (st : State) (v : HostReply) : (st.pushReply v).byteOrder = st.byteOrder := rfl
@[simp] theorem State.pushReply_baseSet (st : State) (v : HostReply) : (st.pushReply v).baseSet = st.baseSet := rfl
@[simp] theorem State.pushReply_lenSet (st : State) (v : HostReply) : (st.pushReply v).lenSet = st.lenSet := rfl
@[simp] theorem State.pushReply_hostMoves (st : State) (v : HostReply) : (st.pushReply v).hostMoves = st.hostMoves := rfl
@[simp] theorem State.pushReply_hostReplies (st : State) (v : HostReply) : (st.pushReply v).hostReplies = st.hostReplies ++ [v] := rfl
@[simp] theorem State.pushReply_draws (st : State) (v : HostReply) : (st.pushReply v).draws = st.draws := rfl

@[simp] theorem State.countDraw_x (st : State) : st.countDraw.x = st.x := rfl
@[simp] theorem State.countDraw_b (st : State) : st.countDraw.b = st.b := rfl
@[simp] theorem State.countDraw_idx (st : State) : st.countDraw.idx = st.idx := rfl
@[simp] theorem State.countDraw_m (st : State) : st.countDraw.m = st.m := rfl
@[simp] theorem State.countDraw_s (st : State) : st.countDraw.s = st.s := rfl
@[simp] theorem State.countDraw_acc (st : State) : st.countDraw.acc = st.acc := rfl
@[simp] theorem State.countDraw_w (st : State) : st.countDraw.w = st.w := rfl
@[simp] theorem State.countDraw_phase (st : State) : st.countDraw.phase = st.phase := rfl
@[simp] theorem State.countDraw_table (st : State) : st.countDraw.table = st.table := rfl
@[simp] theorem State.countDraw_base (st : State) : st.countDraw.base = st.base := rfl
@[simp] theorem State.countDraw_len (st : State) : st.countDraw.len = st.len := rfl
@[simp] theorem State.countDraw_state (st : State) : st.countDraw.state = st.state := rfl
@[simp] theorem State.countDraw_err (st : State) : st.countDraw.err = st.err := rfl
@[simp] theorem State.countDraw_result (st : State) : st.countDraw.result = st.result := rfl
@[simp] theorem State.countDraw_mem (st : State) : st.countDraw.mem = st.mem := rfl
@[simp] theorem State.countDraw_readable (st : State) : st.countDraw.readable = st.readable := rfl
@[simp] theorem State.countDraw_byteOrder (st : State) : st.countDraw.byteOrder = st.byteOrder := rfl
@[simp] theorem State.countDraw_baseSet (st : State) : st.countDraw.baseSet = st.baseSet := rfl
@[simp] theorem State.countDraw_lenSet (st : State) : st.countDraw.lenSet = st.lenSet := rfl
@[simp] theorem State.countDraw_hostMoves (st : State) : st.countDraw.hostMoves = st.hostMoves := rfl
@[simp] theorem State.countDraw_hostReplies (st : State) : st.countDraw.hostReplies = st.hostReplies := rfl
@[simp] theorem State.countDraw_draws (st : State) : st.countDraw.draws = st.draws + 1 := rfl

end Sys2Proof.Machine
end

