-- ==== Sys2Proof/Laws/Memory.lean ====
section
/-! SUPPORT. The laws of the buffer address space: read after write, the canonical form, and what MemRead answers. -/

namespace Sys2Proof.Machine

@[simp] theorem Memory.lookup_put_same (mem : Memory) (a : Nat) (v : BitVec 8) : (Memory.put mem a v).lookup a = some v := by
  induction mem with
  | nil => simp [Memory.put]
  | cons c rest ih =>
    obtain ⟨k, u⟩ := c
    simp only [Memory.put]
    split
    · simp
    · split
      · next h => simp [h]
      · next h => simp [List.lookup_cons, beq_false_of_ne h, ih]

theorem Memory.lookup_put_other (mem : Memory) {a c : Nat} (v : BitVec 8) (h : c ≠ a) :
    (Memory.put mem a v).lookup c = mem.lookup c := by
  induction mem with
  | nil => simp [Memory.put, List.lookup_cons, beq_false_of_ne h]
  | cons e rest ih =>
    obtain ⟨k, u⟩ := e
    simp only [Memory.put]
    split
    · rw [List.lookup_cons, beq_false_of_ne h]
    · split
      · next hk => subst hk; simp [List.lookup_cons, beq_false_of_ne h]
      · simp only [List.lookup_cons, ih]

@[simp] theorem Memory.byteAt_put_same (mem : Memory) (a : Nat) (v : BitVec 8) :
    Memory.byteAt (Memory.put mem a v) a = v := by
  simp [Memory.byteAt]

theorem Memory.byteAt_put_other (mem : Memory) {a c : Nat} (v : BitVec 8) (h : c ≠ a) :
    Memory.byteAt (Memory.put mem a v) c = Memory.byteAt mem c := by
  simp [Memory.byteAt, Memory.lookup_put_other mem v h]

theorem Memory.all_put {p : Nat → Bool} (mem : Memory) (a : Nat) (v : BitVec 8)
    (hm : mem.all (fun c => p c.1) = true) (ha : p a = true) :
    (Memory.put mem a v).all (fun c => p c.1) = true := by
  induction mem with
  | nil => simp [Memory.put, ha]
  | cons e rest ih =>
    obtain ⟨k, u⟩ := e
    simp only [List.all_cons, Bool.and_eq_true] at hm
    simp only [Memory.put]
    split
    · simp [ha, hm.1, hm.2]
    · split
      · simp [hm.1, hm.2]
      · simp [hm.1, ih hm.2]

/-- Writing a byte keeps the canonical form. -/
theorem Memory.wf_put (mem : Memory) (a : Nat) (v : BitVec 8) (ha : a < Config.addressLimit)
    (hm : Memory.wf mem = true) : Memory.wf (Memory.put mem a v) = true := by
  induction mem with
  | nil => simp [Memory.put, Memory.wf, ha]
  | cons e rest ih =>
    obtain ⟨k, u⟩ := e
    have hwf := hm
    simp only [Memory.wf, Bool.and_eq_true, decide_eq_true_eq] at hm
    obtain ⟨⟨hk, hall⟩, hrest⟩ := hm
    simp only [Memory.put]
    split
    · next h =>
      have hall' : rest.all (fun c => decide (a < c.1)) = true := by
        simp only [List.all_eq_true, decide_eq_true_eq] at hall ⊢
        exact fun c hc => Nat.lt_trans h (hall c hc)
      simp only [Memory.wf, ha, h, List.all_cons, hall', decide_true, Bool.true_and, Bool.and_self]
      simpa [Memory.wf] using hwf
    · split
      · simp [Memory.wf, hk, hall, hrest]
      · next h1 h2 =>
        have := Memory.all_put (p := fun c => decide (k < c)) rest a v hall (by simp; omega)
        simp [Memory.wf, hk, ih hrest, this]

/-- A readable address is an address of the space (R68). -/
theorem State.lt_of_isReadable {st : State} {a : Nat} (h : st.isReadable a = true) : a < 2 ^ 64 := by
  simp only [State.isReadable, List.any_eq_true, decide_eq_true_eq] at h
  obtain ⟨r, _, _, h2⟩ := h
  exact Nat.lt_of_le_of_lt h2 r.last.isLt

/-- MemRead answers the bytes at the addresses, in order, when all of them are readable. -/
theorem memRead_of_readable (st : State) (addr n : Nat) (h : ∀ t, t < n → st.isReadable (addr + t) = true) :
    memRead st addr n = .ok ((List.range n).map fun t => Memory.byteAt st.mem (addr + t)) := by
  induction n generalizing addr with
  | zero => rfl
  | succ n ih =>
    have h0 := h 0 n.succ_pos
    have hs := ih (addr + 1) fun t ht => by
      rw [Nat.add_assoc, Nat.add_comm 1]
      exact h (t + 1) (by omega)
    simp only [Nat.add_zero] at h0
    simp only [memRead, h0, if_true, hs, List.range_succ_eq_map, List.map_cons, List.map_map, Nat.add_zero]
    congr 2
    exact List.map_congr_left fun t _ => by simp [Nat.add_assoc, Nat.add_comm 1]

/-- Where MemRead stops, it names an unreadable address of the range, the ones below it being readable. -/
theorem memRead_eq_error_iff (st : State) (addr n a : Nat) :
    memRead st addr n = .error a ↔
      addr ≤ a ∧ a < addr + n ∧ st.isReadable a = false ∧ ∀ c, addr ≤ c → c < a → st.isReadable c = true := by
  induction n generalizing addr with
  | zero => simp [memRead]; omega
  | succ n ih =>
    simp only [memRead]
    split
    · next h =>
      have key : memRead st (addr + 1) n = .error a ↔ addr ≤ a ∧ a < addr + (n + 1) ∧
          st.isReadable a = false ∧ ∀ c, addr ≤ c → c < a → st.isReadable c = true := by
        rw [ih]
        constructor
        · rintro ⟨h1, h2, h3, h4⟩
          refine ⟨by omega, by omega, h3, fun c hc1 hc2 => ?_⟩
          rcases Nat.eq_or_lt_of_le hc1 with rfl | hlt
          · exact h
          · exact h4 c hlt hc2
        · rintro ⟨h1, h2, h3, h4⟩
          have hne : addr ≠ a := by
            rintro rfl
            simp [h] at h3
          exact ⟨by omega, by omega, h3, fun c hc1 hc2 => h4 c (by omega) hc2⟩
      rw [← key]
      cases memRead st (addr + 1) n <;> simp
    · next h =>
      simp only [Bool.not_eq_true] at h
      simp only [Except.error.injEq]
      constructor
      · rintro rfl
        exact ⟨Nat.le_refl _, by omega, h, fun c _ _ => by omega⟩
      · rintro ⟨h1, _, _, h4⟩
        rcases Nat.eq_or_lt_of_le h1 with e | hlt
        · exact e
        · simp [h4 addr (Nat.le_refl _) hlt] at h

/-- MemRead goes through exactly when all the addresses are readable, and then answers the bytes there. -/
theorem memRead_eq_ok_iff (st : State) (addr n : Nat) (bs : List (BitVec 8)) :
    memRead st addr n = .ok bs ↔ (∀ t, t < n → st.isReadable (addr + t) = true) ∧
      bs = (List.range n).map fun t => Memory.byteAt st.mem (addr + t) := by
  constructor
  · intro h
    have hr : ∀ t, t < n → st.isReadable (addr + t) = true := by
      intro t
      induction t using Nat.strongRecOn with
      | ind t ih =>
        intro ht
        by_contra hn
        have he := (memRead_eq_error_iff st addr n (addr + t)).2
          ⟨by omega, by omega, by simpa using hn, fun c h1 h2 => by
            obtain ⟨d, rfl⟩ := Nat.exists_eq_add_of_le h1
            exact ih d (by omega) (by omega)⟩
        simp [h] at he
    rw [memRead_of_readable st addr n hr] at h
    exact ⟨hr, (Except.ok.inj h).symm⟩
  · rintro ⟨hr, rfl⟩
    exact memRead_of_readable st addr n hr

end Sys2Proof.Machine
end

