-- ==== Sys2Proof/Laws/Exec.lean ====
section
/-! SUPPORT. What each shared operation can do, said once. -/

namespace Sys2Proof.Machine

/-- Drawing BASE touches BASE, its mark and the counter of draws, and only where BASE held no value. -/
theorem State.resolveBase_eq (st : State) :
    st.resolveBase = { st with
      base := if st.baseSet then st.base else Config.freeWord st.draws .base
      baseSet := true
      draws := if st.baseSet then st.draws else st.draws + 1 } := by
  unfold State.resolveBase
  split
  · next h => cases st; simp_all
  · rfl

/-- Drawing LEN touches LEN, its mark and the counter of draws, and only where LEN held no value. -/
theorem State.resolveLen_eq (st : State) :
    st.resolveLen = { st with
      len := if st.lenSet then st.len else Config.freeWord st.draws .len
      lenSet := true
      draws := if st.lenSet then st.draws else st.draws + 1 } := by
  unfold State.resolveLen
  split
  · next h => cases st; simp_all
  · rfl

theorem State.resolveBase_of_set {st : State} (h : st.baseSet = true) : st.resolveBase = st := by
  simp [State.resolveBase, h]

theorem State.resolveLen_of_set {st : State} (h : st.lenSet = true) : st.resolveLen = st := by
  simp [State.resolveLen, h]

/-- The START transition with operands that hold values: five fields change. -/
theorem State.beginCall_of_set {st : State} (hb : st.baseSet = true) (hl : st.lenSet = true) :
    st.beginCall = { st with acc := 0#64, w := 0#61, err := 0#4, state := .busy, phase := Phase.chklen } := by
  unfold State.beginCall
  rw [State.resolveBase_of_set hb, State.resolveLen_of_set hl]
  rfl

theorem State.takePreconditionViolation_eq (st : State) :
    st.takePreconditionViolation = { st with err := 1#4, state := .fail, phase := Phase.none } := rfl

/-- What LDW can do: load the word, or stop at the first unreadable address. -/
theorem execLdw_cases (st : State) :
    (∃ bytes, memRead st (effectiveAddress st.base st.w) 8 = .ok bytes ∧
      execLdw st = .next { st with x := assembleWord st.byteOrder bytes, phase := Phase.sgnx }) ∨
    (∃ a, memRead st (effectiveAddress st.base st.w) 8 = .error a ∧ execLdw st = .fault (.unreadable a)) := by
  unfold execLdw
  cases h : memRead st (effectiveAddress st.base st.w) 8 with
  | ok bytes => exact .inl ⟨bytes, rfl, rfl⟩
  | error a => exact .inr ⟨a, rfl, rfl⟩

/-- LDW completes where its eight addresses are readable, with the bytes there in X, in the byte order. -/
theorem execLdw_of_readable {st : State} (h : ∀ t, t < 8 → st.isReadable (effectiveAddress st.base st.w + t) = true) :
    execLdw st = .next { st with
      x := assembleWord st.byteOrder
        ((List.range 8).map fun t => Memory.byteAt st.mem (effectiveAddress st.base st.w + t))
      phase := Phase.sgnx } := by
  unfold execLdw
  rw [memRead_of_readable st _ 8 h]
  rfl

/-- LDW has no step exactly where one of its eight addresses is not readable. -/
theorem execLdw_eq_fault_iff (st : State) (f : Fault) :
    execLdw st = .fault f ↔ ∃ a, f = .unreadable a ∧ memRead st (effectiveAddress st.base st.w) 8 = .error a := by
  rcases execLdw_cases st with ⟨bs, h1, h2⟩ | ⟨a, h1, h2⟩
  · simp [h1, h2]
  · simp [h1, h2, eq_comm]

/-- Only LDW can stop, and only at an address that is not readable; nothing is refused. -/
theorem exec_next_or_unreadable (i : Instr) (st : State) :
    (∃ t, exec i st = .next t) ∨ (i = .ldw ∧ ∃ a, exec i st = .fault (.unreadable a)) := by
  cases i
  case chklen => simp only [exec, execChklen]; split <;> exact .inl ⟨_, rfl⟩
  case tstw => simp only [exec, execTstw]; split <;> exact .inl ⟨_, rfl⟩
  case start => simp only [exec, execStart]; split <;> exact .inl ⟨_, rfl⟩
  case ldw =>
    rcases execLdw_cases st with ⟨_, _, h⟩ | ⟨a, _, h⟩
    · exact .inl ⟨_, h⟩
    · exact .inr ⟨rfl, a, h⟩
  all_goals exact .inl ⟨_, rfl⟩

end Sys2Proof.Machine
end

