-- ==== Sys2Proof/Laws/PerInstr.lean ====
section
/-! SUPPORT. Statements made of every operation as syntax, one lemma per constructor. -/

namespace Sys2Proof.Laws.Coding

/-- The operation is well-formed, its code is well-formed, and the decoder reads the operation back from its code. -/
def Statement (i : Instr) : Prop :=
  i.wellFormed = true ∧ (encode i).wellFormed = true ∧ decode (encode i) = .ok i

theorem chklen : Statement .chklen := ⟨rfl, rfl, rfl⟩
theorem tblgen : Statement .tblgen := ⟨rfl, rfl, rfl⟩
theorem tstw : Statement .tstw := ⟨rfl, rfl, rfl⟩
theorem ldw : Statement .ldw := ⟨rfl, rfl, rfl⟩
theorem sgnx : Statement .sgnx := ⟨rfl, rfl, rfl⟩
theorem fold33 : Statement .fold33 := ⟨rfl, rfl, rfl⟩
theorem fold18 : Statement .fold18 := ⟨rfl, rfl, rfl⟩
theorem fold12 : Statement .fold12 := ⟨rfl, rfl, rfl⟩
theorem idxm : Statement .idxm := ⟨rfl, rfl, rfl⟩
theorem lut : Statement .lut := ⟨rfl, rfl, rfl⟩
theorem msk : Statement .msk := ⟨rfl, rfl, rfl⟩
theorem hs8 : Statement .hs8 := ⟨rfl, rfl, rfl⟩
theorem hs16 : Statement .hs16 := ⟨rfl, rfl, rfl⟩
theorem hs32 : Statement .hs32 := ⟨rfl, rfl, rfl⟩
theorem accum : Statement .accum := ⟨rfl, rfl, rfl⟩
theorem incw : Statement .incw := ⟨rfl, rfl, rfl⟩
theorem fin : Statement .fin := ⟨rfl, rfl, rfl⟩
theorem start : Statement .start := ⟨rfl, rfl, rfl⟩

end Sys2Proof.Laws.Coding
end

