-- ==== Sys2Proof/Laws/Step.lean ====
section
/-! SUPPORT. What fetching finds, case by case. -/

namespace Sys2Proof.Machine

theorem fetch_nil {st : State} (h : st.hostMoves = []) : fetch st = fetchUnit st := by
  simp [fetch, h]

theorem fetch_pass {st : State} {rest : List HostMove} (h : st.hostMoves = .pass :: rest) :
    fetch st = fetchUnit (st.setHostMoves rest) := by
  simp [fetch, h]

theorem fetch_writeCtrl {st : State} {v : BitVec 1} {rest : List HostMove} (h : st.hostMoves = .writeCtrl v :: rest) :
    fetch st = fetchCtrl v (st.setHostMoves rest) := by
  simp [fetch, h]

/-- A move that is neither `pass` nor a write of CTRL is handed over as it is. -/
theorem fetch_move {st : State} {mv : HostMove} {rest : List HostMove} (h : st.hostMoves = mv :: rest)
    (hp : mv ≠ .pass) (hc : ∀ v, mv ≠ .writeCtrl v) : fetch st = .move mv (st.setHostMoves rest) := by
  cases mv <;> simp_all [fetch]

theorem fetchUnit_run {st : State} {i : Instr} (hb : st.state = .busy) (hd : decode (.phase st.phase) = .ok i) :
    fetchUnit st = .run i st := by
  simp [fetchUnit, hb, hd]

theorem fetchUnit_wait {st : State} (hb : st.state ≠ .busy) : fetchUnit st = .wait st := by
  simp [fetchUnit, hb]

/-- Every PHASE code names a micro-operation, is NONE, or is reserved (R90, R92). -/
theorem decode_phase_cases (c : BitVec 5) :
    (∃ i, decode (.phase c) = .ok i) ∨ (decode (.phase c) = .error .noMicroOp ∧ c = Phase.none) ∨
      (decode (.phase c) = .error (.reservedPhase c) ∧ 18 ≤ c.toNat) := by
  have key : ∀ c : BitVec 5, (match decode (.phase c) with
      | .ok _ => true
      | .error .noMicroOp => c == Phase.none
      | .error (.reservedPhase d) => d == c && decide (18 ≤ c.toNat)
      | .error .noCommand => false) = true := by decide
  have h := key c
  split at h
  · next i hi => exact .inl ⟨i, hi⟩
  · next hi => exact .inr (.inl ⟨hi, by simpa using h⟩)
  · next d hi =>
    simp only [Bool.and_eq_true, beq_iff_eq, decide_eq_true_eq] at h
    exact .inr (.inr ⟨h.1 ▸ hi, h.2⟩)
  · exact absurd h (by simp)

/-- Everything the unit's turn can find. -/
theorem fetchUnit_cases (st : State) :
    (∃ i, st.state = .busy ∧ decode (.phase st.phase) = .ok i ∧ fetchUnit st = .run i st) ∨
    (fetchUnit st = .wait st ∧ (st.state = .busy → st.phase = Phase.none)) ∨
    (st.state = .busy ∧ 18 ≤ st.phase.toNat ∧ fetchUnit st = .stop (.reservedPhase st.phase)) := by
  by_cases hb : st.state = .busy
  · rcases decode_phase_cases st.phase with ⟨i, h⟩ | ⟨h, hc⟩ | ⟨h, hc⟩
    · exact .inl ⟨i, hb, h, fetchUnit_run hb h⟩
    · exact .inr (.inl ⟨by simp [fetchUnit, hb, h], fun _ => hc⟩)
    · exact .inr (.inr ⟨hb, hc, by simp [fetchUnit, hb, h]⟩)
  · exact .inr (.inl ⟨fetchUnit_wait hb, fun h => absurd h hb⟩)

theorem fetchCtrl_one (st : State) : fetchCtrl 1#1 st = .run .start st := rfl

theorem fetchCtrl_zero (st : State) : fetchCtrl 0#1 st = .wait st := rfl

/-- The state a step works on: the next move is taken off the list. -/
def State.afterFetch (st : State) : State :=
  st.setHostMoves st.hostMoves.tail

theorem State.afterFetch_nil {st : State} (h : st.hostMoves = []) : st.afterFetch = st := by
  cases st
  simp_all [State.afterFetch, State.setHostMoves]

/-- Everything a step that goes on can be: the unit's micro-operation, the host's START, a move of the host or the
platform, or no change but the move used up. -/
theorem step_next_cases {st t : State} (h : step st = .next t) :
    (∃ i, st.state = .busy ∧ decode (.phase st.phase) = .ok i ∧ exec i st.afterFetch = .next t) ∨
    exec .start st.afterFetch = .next t ∨
    (∃ mv rest, st.hostMoves = mv :: rest ∧ hostMove mv st.afterFetch = .next t) ∨
    t = st.afterFetch := by
  have unit (u : State) (hu : fetchUnit u = fetch st) (hs : u.state = st.state) (hp : u.phase = st.phase)
      (ha : u = st.afterFetch) : (∃ i, st.state = .busy ∧ decode (.phase st.phase) = .ok i ∧
        exec i st.afterFetch = .next t) ∨ t = st.afterFetch := by
    rw [step, ← hu] at h
    rcases fetchUnit_cases u with ⟨i, hb, hd, hf⟩ | ⟨hf, _⟩ | ⟨_, _, hf⟩ <;> rw [hf] at h
    · exact .inl ⟨i, hs ▸ hb, hp ▸ hd, ha ▸ h⟩
    · cases h
      exact .inr ha
    · cases h
  cases hm : st.hostMoves with
  | nil =>
    rcases unit st (fetch_nil hm).symm rfl rfl (State.afterFetch_nil hm).symm with hu | hu
    · exact .inl hu
    · exact .inr (.inr (.inr hu))
  | cons mv rest =>
    have ha : st.setHostMoves rest = st.afterFetch := by simp [State.afterFetch, hm]
    by_cases hp : mv = .pass
    · subst hp
      rcases unit _ (fetch_pass hm).symm rfl rfl ha with hu | hu
      · exact .inl hu
      · exact .inr (.inr (.inr hu))
    · by_cases hc : ∃ v, mv = .writeCtrl v
      · obtain ⟨v, rfl⟩ := hc
        rw [step, fetch_writeCtrl hm, ha] at h
        rcases (by decide : ∀ v : BitVec 1, v = 1#1 ∨ v = 0#1) v with rfl | rfl
        · exact .inr (.inl h)
        · cases h
          exact .inr (.inr (.inr rfl))
      · rw [step, fetch_move hm hp (fun v hv => hc ⟨v, hv⟩), ha] at h
        exact .inr (.inr (.inl ⟨mv, rest, rfl, h⟩))

end Sys2Proof.Machine
end

