-- ==== Sys2Proof/Laws/Run.lean ====
section
/-! SUPPORT. Runs: how `steps` and `execAll` compose, and that `steps` is the host's own run of the machine. -/

namespace Sys2Proof.Machine

theorem steps_succ_of_next {k : Nat} {st t : State} (h : step st = .next t) : steps (k + 1) st = steps k t := by
  simp [steps, h]

theorem steps_add_of_next {j k : Nat} {st t : State} (h : steps j st = .next t) :
    steps (j + k) st = steps k t := by
  induction j generalizing st with
  | zero =>
    cases h
    rw [Nat.zero_add]
  | succ j ih =>
    rw [Nat.succ_add, steps]
    cases hs : step st with
    | next u => rw [steps, hs] at h; exact ih h
    | fault f => rw [steps, hs] at h; cases h
    | refused r => rw [steps, hs] at h; cases h

theorem execAll_cons_of_next {i : Instr} {rest : List Instr} {st t : State} (h : exec i st = .next t) :
    execAll (i :: rest) st = execAll rest t := by
  simp [execAll, h]

theorem core_run_succ (M : Host.Core) (k : Nat) (s : M.State) :
    M.run (k + 1) s =
      match M.step s with
      | .next s' => M.run k s'
      | .fault r => .fault r
      | .refused r => .refused r := rfl

/-- `steps` is the run of the host's interface. -/
theorem steps_eq_core_run (k : Nat) (st : State) : Sys2Proof.core.run k st = steps k st := by
  induction k generalizing st with
  | zero => rfl
  | succ k ih =>
    refine (core_run_succ Sys2Proof.core k st).trans ?_
    rw [steps]
    cases h : step st with
    | next t =>
      have hc : Sys2Proof.core.step st = .next t := h
      rw [hc]
      exact ih t
    | fault f =>
      have hc : Sys2Proof.core.step st = .fault f := h
      rw [hc]
      rfl
    | refused r =>
      have hc : Sys2Proof.core.step st = .refused r := h
      rw [hc]
      rfl

end Sys2Proof.Machine
end

