-- ==== Sys2Proof/Tests/Slice0.lean ====
section
/-! SUPPORT. The model's own tests: ill-formed codes, words written out from the spec's encodings, one or two steps per
operation with the expected value taken from spec/95_test_vectors.md, and for every statement with hypotheses a state that
meets them. -/

namespace Sys2Proof.Tests

open Sys2Proof.Machine

/-- The next state, where there is one. -/
def nextOf : Host.Outcome State Fault Refusal → Option State
  | .next t => some t
  | .fault _ => none
  | .refused _ => none

/-- A field of the state an operation leaves. -/
def after {α : Type} (i : Instr) (st : State) (f : State → α) : Option α :=
  (nextOf (exec i st)).map f

/-- These bytes put in place from this address on (R60). -/
def bytesFrom (a : Nat) : List (BitVec 8) → Memory
  | [] => []
  | v :: rest => (a, v) :: bytesFrom (a + 1) rest

/-- A unit in a call, about to perform the operation with this code. -/
def inCall (phase : BitVec 5) : State :=
  { State.reset with state := .busy, phase := phase, baseSet := true, lenSet := true }

/-- The eight bytes of the scenario E3. -/
def bytesE3 : List (BitVec 8) := [0x00#8, 0x7F#8, 0x80#8, 0xFF#8, 0x40#8, 0xC8#8, 0x01#8, 0x81#8]

/-- Program P1 before its START: BASE, LEN and the buffer in place (95 section 3). -/
def programP1 : State :=
  { State.reset with
    base := 0x1000#64, len := 8#64, baseSet := true, lenSet := true, mem := bytesFrom 0x1000 bytesE3
    readable := [⟨0x1000#64, 0x1007#64⟩]
    hostMoves := [.writeCtrl 1#1] }

/-- Program P3a before its START: a length of 7 (95 section 3). -/
def programP3a : State :=
  { programP1 with base := 0x3000#64, len := 7#64, mem := [], readable := [] }

/-- Program P4 before its START: a length of 0 (95 section 3). -/
def programP4 : State :=
  { programP1 with base := 0xDEAD0000#64, len := 0#64, mem := [], readable := [] }

/-- Program P6 at its stuck load: Readable is 0x1000 to 0x100B, so 0x100C is barred (95 V42-2, P6). -/
def programP6Stuck : State :=
  { inCall 4#5 with
    base := 0x1000#64, len := 16#64, w := 1#61, readable := [⟨0x1000#64, 0x100B#64⟩]
    mem := bytesFrom 0x1000
      [0x80#8, 0x80#8, 0x80#8, 0x80#8, 0x80#8, 0x80#8, 0x80#8, 0x80#8, 0x90#8, 0x90#8, 0x90#8, 0x90#8] }

/-- Program P1 at ACCUM, with the registers its trace gives (95 P1). -/
def programP1AtAccum : State :=
  { programP1 with
    hostMoves := [], state := .busy, phase := 15#5, table := fullTable
    x := 0x8100C800FF800000#64, b := 0x8008A00AE08E7827#64, idx := 0x27#8, m := 0xFF00FF00FFFF0000#64, s := 0x2C8#64 }

/-! Ill-formed codes, one per check (R90, R92, R33). -/

theorem test_wf_refuses_none : (Code.phase 0#5).namesSomething = false ∧ (Code.phase 0#5).wellFormed = false := by decide
theorem test_wf_refuses_ctrl_zero : (Code.ctrl 0#1).namesSomething = false ∧ (Code.ctrl 0#1).wellFormed = false := by decide
theorem test_wf_refuses_reserved : (Code.phase 18#5).notReserved = false ∧ (Code.phase 31#5).wellFormed = false := by decide
theorem test_wf_accepts_fin : (Code.phase 17#5).wellFormed = true ∧ (Code.ctrl 1#1).wellFormed = true := by decide

/-! Codes written out from the binary column of R90 and the bit of R91, one or more per family. -/

theorem test_decode_control : decode (.phase 0b00001#5) = .ok .chklen ∧ decode (.phase 0b00011#5) = .ok .tstw ∧
    decode (.phase 0b10000#5) = .ok .incw ∧ decode (.phase 0b10001#5) = .ok .fin := ⟨rfl, rfl, rfl, rfl⟩
theorem test_decode_start : decode (.ctrl 0b1#1) = .ok .start := rfl
theorem test_decode_table : decode (.phase 0b00010#5) = .ok .tblgen := rfl
theorem test_decode_load : decode (.phase 0b00100#5) = .ok .ldw := rfl
theorem test_decode_filter : decode (.phase 0b00101#5) = .ok .sgnx ∧ decode (.phase 0b00110#5) = .ok .fold33 ∧
    decode (.phase 0b00111#5) = .ok .fold18 ∧ decode (.phase 0b01000#5) = .ok .fold12 ∧
    decode (.phase 0b01001#5) = .ok .idxm ∧ decode (.phase 0b01010#5) = .ok .lut ∧
    decode (.phase 0b01011#5) = .ok .msk := ⟨rfl, rfl, rfl, rfl, rfl, rfl, rfl⟩
theorem test_decode_reduce : decode (.phase 0b01100#5) = .ok .hs8 ∧ decode (.phase 0b01101#5) = .ok .hs16 ∧
    decode (.phase 0b01110#5) = .ok .hs32 ∧ decode (.phase 0b01111#5) = .ok .accum := ⟨rfl, rfl, rfl, rfl⟩
theorem test_decode_rejects : decode (.phase 0b00000#5) = .error .noMicroOp ∧
    decode (.phase 0b10010#5) = .error (.reservedPhase 18#5) ∧ decode (.ctrl 0b0#1) = .error .noCommand := ⟨rfl, rfl, rfl⟩
theorem test_table_words : decodeTableWord 5 0x11 = some .fin ∧ decodeTableWord 8 0x0F = some .accum ∧
    decodeTableWord 1 0x1 = some .start ∧ decodeTableWord 8 0x12 = none ∧ decodeTableWord 8 0x20 = none := by decide
theorem test_fetch_word_runs_sgnx : step (State.reset.withFetchWord 5 0x05) =
    exec .sgnx { State.reset with state := .busy, phase := 5#5 } := by rfl
theorem test_fetch_word_runs_start : step (State.reset.withFetchWord 1 1) = exec .start State.reset := by rfl

/-! One or two steps per operation; the source of each expected value is named. -/

/-- V40-1 -/
theorem test_chklen_passes : after .chklen { inCall 1#5 with len := 0xFFFFFFFFFFFFFFF8#64 } (·.phase) = some 2#5 := by decide
/-- V60-1, V40-7: STATUS reads 0x13 -/
theorem test_chklen_fails : after .chklen { inCall 1#5 with len := 0x0000000100000004#64 }
    (fun t => (t.statusByte, t.phase)) = some (0x13#8, 0#5) := by decide
/-- V40-2 -/
theorem test_tstw_goes_on : after .tstw { inCall 3#5 with len := 0xFFFFFFFFFFFFFFF8#64, w := 2305843009213693950#61 }
    (·.phase) = some 4#5 := by decide
/-- V40-2 -/
theorem test_tstw_ends : after .tstw { inCall 3#5 with len := 0xFFFFFFFFFFFFFFF8#64, w := 2305843009213693951#61 }
    (·.phase) = some 17#5 := by decide
/-- V40-3 -/
theorem test_incw_largest : after .incw { inCall 16#5 with w := 2305843009213693950#61 } (fun t => (t.w, t.phase)) =
    some (2305843009213693951#61, 3#5) := by decide
/-- V40-4, V40-7 -/
theorem test_fin : after .fin { inCall 17#5 with acc := 0x2C8#64 } (fun t => (t.result, t.statusByte, t.phase)) =
    some (0x2C8#64, 0x02#8, 0#5) := by decide
/-- V40-5, from DONE -/
theorem test_start_from_done : after .start { inCall 0#5 with state := .done, acc := 0x2C8#64, w := 1#61 }
    (fun t => (t.statusByte, t.phase, t.acc, t.w)) = some (0x01#8, 1#5, 0#64, 0#61) := by decide
/-- V40-5, from FAIL -/
theorem test_start_from_fail : after .start { inCall 0#5 with state := .fail, err := 1#4 }
    (fun t => (t.statusByte, t.phase)) = some (0x01#8, 1#5) := by decide
/-- V41-2: TBL(0x3C) and TBL(0x81) -/
theorem test_tbl_entries : tbl 0x3C#8 = 0x00FFFF0000FFFF00#64 ∧ tbl 0x81#8 = 0xFF000000000000FF#64 := by decide
/-- 41_table section 4: entries 0x27 and 0xF0 after TBLGEN -/
theorem test_tblgen : after .tblgen (inCall 2#5) (fun t => (tableEntry t.table 0x27#8, tableEntry t.table 0xF0#8, t.phase)) =
    some (0xFF00FF00FFFF0000#64, 0x00FF00FF00FF00FF#64, 3#5) := by decide +kernel
/-- V42-1 row 6: the highest word of the address space, LE -/
theorem test_ldw_top_le : after .ldw { inCall 4#5 with
    base := 0xFFFFFFFFFFFFFFF8#64
    mem := bytesFrom 0xFFFFFFFFFFFFFFF8 [0x11#8, 0x22#8, 0x33#8, 0x44#8, 0x55#8, 0x66#8, 0x77#8, 0x88#8] }
    (·.x) = some 0x8877665544332211#64 := by decide
/-- V42-1 row 4: an unaligned BASE, W = 2, BE -/
theorem test_ldw_unaligned_be : after .ldw { inCall 4#5 with
    base := 0x1003#64, w := 2#61, byteOrder := .be
    mem := bytesFrom 0x1013 [0x00#8, 0x00#8, 0x00#8, 0x00#8, 0x00#8, 0x00#8, 0x00#8, 0x80#8] }
    (·.x) = some 0x0000000000000080#64 := by decide
/-- P6: the load is stuck at 0x100C -/
theorem test_ldw_stuck : step programP6Stuck = .fault (.unreadable 0x100C) :=
  show exec .ldw programP6Stuck = _ from rfl
/-- R209: a byte put at the barred address does not make it readable -/
theorem test_ldw_stays_barred : exec .ldw { programP6Stuck with mem := Memory.put programP6Stuck.mem 0x100C 0x90#8 } =
    .fault (.unreadable 0x100C) := rfl
/-- R67: in Readable, LDW has its step although no byte was put in place -/
theorem test_ldw_unwritten : ∃ t, step (State.reset.withFetchWord 5 4) = .next t := ⟨_, rfl⟩
/-- V43-1, the scenario word in LE -/
theorem test_sgnx : after .sgnx { inCall 5#5 with x := 0x8101C840FF807F00#64 } (·.b) = some 0x8000800080800000#64 := by decide
/-- V43-1, the scenario word in LE -/
theorem test_fold33 : after .fold33 { inCall 6#5 with b := 0x8000800080800000#64 } (·.b) = some 0x80008000C0804000#64 := by decide
/-- V43-1, the scenario word in LE -/
theorem test_fold18 : after .fold18 { inCall 7#5 with b := 0x80008000C0804000#64 } (·.b) = some 0x8000A000E0807020#64 := by decide
/-- V43-1, the scenario word in LE -/
theorem test_fold12 : after .fold12 { inCall 8#5 with b := 0x8000A000E0807020#64 } (·.b) = some 0x8008A00AE08E7827#64 := by decide
/-- V43-1, the scenario word in LE -/
theorem test_idxm : after .idxm { inCall 9#5 with b := 0x8008A00AE08E7827#64 } (·.idx) = some 0x27#8 := by decide
/-- V43-1, the scenario word in LE -/
theorem test_lut : after .lut { inCall 10#5 with idx := 0x27#8, table := fullTable } (·.m) =
    some 0xFF00FF00FFFF0000#64 := by decide +kernel
/-- V43-1, the scenario word in LE -/
theorem test_msk : after .msk { inCall 11#5 with x := 0x8101C840FF807F00#64, m := 0xFF00FF00FFFF0000#64 } (·.x) =
    some 0x8100C800FF800000#64 := by decide
/-- V44-1, last row: an unmasked word -/
theorem test_hs8 : after .hs8 { inCall 12#5 with x := 0x8101C840FF807F00#64 } (·.s) = some 0x00820108017F007F#64 := by decide
/-- V44-1, last row -/
theorem test_hs16 : after .hs16 { inCall 13#5 with s := 0x00820108017F007F#64 } (·.s) = some 0x0000018A000001FE#64 := by decide
/-- V44-1, last row: 904 -/
theorem test_hs32 : after .hs32 { inCall 14#5 with s := 0x0000018A000001FE#64 } (·.s) = some 904#64 := by decide
/-- V44-2: the sum wraps -/
theorem test_accum_wraps : after .accum { inCall 15#5 with acc := 0xFFFFFFFFFFFFFF00#64, s := 0x7F8#64 } (·.acc) =
    some 0x6F8#64 := by decide
/-- E3 by R185: 712 -/
theorem test_reference : reference bytesE3 = 712 := by decide

/-! For every statement with hypotheses, states that meet them, clause by clause. -/

theorem witness_reserved_codes : 18 ≤ (18#5).toNat ∧ 18 ≤ (31#5).toNat := by decide
theorem witness_start_begins : programP1.state ≠ .busy ∧ programP1.baseSet = true ∧ programP1.lenSet = true := by decide
theorem witness_start_busy : (inCall 1#5).state = .busy := rfl
theorem witness_start_without_operands : State.reset.state ≠ .busy ∧ State.reset.baseSet = false := by decide
theorem witness_incw_boundary :
    (2305843009213693950#61).toNat < (0xFFFFFFFFFFFFFFF8#64).toNat / 8 := by decide
/-- every operation completes on the state of P1 -/
theorem witness_every_operation_completes : ∀ i : Instr, ∃ t, exec i { programP1 with hostMoves := [] } = .next t := by
  intro i; cases i <;> exact ⟨_, rfl⟩
theorem witness_start_not_busy_completes : programP1.state ≠ .busy ∧ ∃ t, exec .start programP1 = .next t :=
  ⟨by decide, _, rfl⟩
theorem witness_phase_none_waits : State.reset.hostMoves = [] ∧ State.reset.phase = 0#5 ∧
    step State.reset = .next State.reset := ⟨rfl, rfl, rfl⟩
theorem witness_ldw_readable : ∀ t, t < 8 →
    State.reset.isReadable ((0xFFFFFFFFFFFFFFF8#64).toNat + 8 * (0#61).toNat + t) = true ∧
    Memory.byteAt (bytesFrom 0xFFFFFFFFFFFFFFF8 bytesE3) ((0xFFFFFFFFFFFFFFF8#64).toNat + 8 * (0#61).toNat + t) =
      bytesE3.getD t 0#8 := by decide
theorem witness_ldw_unreadable : 4 < 8 ∧
    programP6Stuck.isReadable (programP6Stuck.base.toNat + 8 * programP6Stuck.w.toNat + 4) = false := by decide
theorem witness_ldw_completes : ∃ t, exec .ldw { programP1 with hostMoves := [] } = .next t := ⟨_, rfl⟩
theorem witness_stuck_unit : programP6Stuck.hostMoves = [] ∧ programP6Stuck.state = .busy ∧ programP6Stuck.phase = 4#5 :=
  ⟨rfl, rfl, rfl⟩
theorem witness_top_of_space : 2 ^ 64 ≤ (0xFFFFFFFFFFFFFFF9#64).toNat + 8 * (0#61).toNat + 7 := by decide
theorem witness_table_built : programP1AtAccum.tableBuilt := by
  show ∀ i : BitVec 8, tableEntry fullTable i = tbl i
  decide +kernel
theorem witness_word_readable : ∀ t, t < 8 →
    programP1AtAccum.isReadable (programP1AtAccum.base.toNat + 8 * programP1AtAccum.w.toNat + t) = true := by decide
theorem witness_operation_not_start : Instr.ldw ≠ .start ∧ ∃ t, exec .ldw programP1 = .next t := ⟨by decide, _, rfl⟩
/-- each register of R20's column changes under one of its writers -/
theorem witness_registers_change :
    after .ldw programP1 (·.x) ≠ some programP1.x ∧ after .msk { inCall 11#5 with x := 1#64 } (·.x) ≠ some 1#64 ∧
    after .sgnx { inCall 5#5 with x := 0x80#64 } (·.b) ≠ some 0#64 ∧
    after .idxm { inCall 9#5 with b := 1#64 } (·.idx) ≠ some 0#8 ∧
    after .hs8 { inCall 12#5 with x := 1#64 } (·.s) ≠ some 0#64 ∧
    after .accum { inCall 15#5 with s := 1#64 } (·.acc) ≠ some 0#64 ∧ after .incw (inCall 16#5) (·.w) ≠ some 0#61 ∧
    after .fin { inCall 17#5 with acc := 1#64 } (fun t => (t.result, t.state)) ≠ some (0#64, .busy) ∧
    after .chklen { inCall 1#5 with len := 1#64 } (·.err) ≠ some 0#4 := by decide
theorem witness_mask_and_table_change :
    after .tblgen (inCall 2#5) (fun t => tableEntry t.table 1#8) ≠ some (tableEntry (inCall 2#5).table 1#8) ∧
    after .lut { inCall 10#5 with idx := 1#8, table := fullTable } (·.m) ≠ some 0#64 := by decide +kernel
theorem witness_step_performs : (inCall 5#5).hostMoves = [] ∧ (inCall 5#5).state = .busy ∧
    decode (.phase (inCall 5#5).phase) = .ok .sgnx := ⟨rfl, rfl, rfl⟩
theorem witness_step_performs_after_pass : ({ inCall 5#5 with hostMoves := [.pass] }).hostMoves = .pass :: [] := rfl
theorem witness_reserved_phase : (inCall 18#5).hostMoves = [] ∧ (inCall 18#5).state = .busy ∧
    18 ≤ (inCall 18#5).phase.toNat ∧ 18 ≤ (inCall 31#5).phase.toNat := by decide
theorem witness_ctrl_and_reset_moves : programP1.hostMoves = .writeCtrl 1#1 :: [] ∧
    ({ programP1 with hostMoves := [.writeCtrl 0#1] }).hostMoves = .writeCtrl 0#1 :: [] ∧
    ({ programP1 with hostMoves := [.readCtrl] }).hostMoves = .readCtrl :: [] ∧
    ({ programP1AtAccum with hostMoves := [.reset] }).hostMoves = .reset :: [] := ⟨rfl, rfl, rfl, rfl⟩

theorem witness_control_invariant : programP1AtAccum.Inv where
  phaseLegal := by decide
  busyIffPhase := by decide
  errInFail := by decide
  errElsewhere := by decide
  operandsSet := by decide
  lengthChecked := by decide
  wordBound := by decide
  wordLeft := by decide

theorem witness_call_invariant : programP1AtAccum.CallInv :=
  ⟨witness_control_invariant, fun _ => ⟨witness_table_built, by show _ = _; decide, by decide⟩⟩

theorem witness_memory_form : Memory.wf programP1AtAccum.mem = true := by decide

theorem witness_invariant_step : ∃ t, step programP1AtAccum = .next t := ⟨_, rfl⟩

theorem witness_stuck_invariant : programP6Stuck.Inv where
  phaseLegal := by decide
  busyIffPhase := by decide
  errInFail := by decide
  errElsewhere := by decide
  operandsSet := by decide
  lengthChecked := by decide
  wordBound := by decide
  wordLeft := by decide

theorem witness_step_faults : ∃ f, step programP6Stuck = .fault f := ⟨_, test_ldw_stuck⟩

theorem witness_step_refuses : ∃ r, step { programP1AtAccum with hostMoves := [.putByte 0x1007#64 0#8] } = .refused r :=
  ⟨_, rfl⟩

theorem witness_refusing_invariant : ({ programP1AtAccum with hostMoves := [.putByte 0x1007#64 0#8] } : State).Inv where
  phaseLegal := by decide
  busyIffPhase := by decide
  errInFail := by decide
  errElsewhere := by decide
  operandsSet := by decide
  lengthChecked := by decide
  wordBound := by decide
  wordLeft := by decide

theorem witness_buffer_readable : programP1AtAccum.bufferReadable ∧ programP1AtAccum.hostMoves = [] := by
  refine ⟨?_, rfl⟩
  unfold State.bufferReadable
  decide

theorem witness_call : programP1.aboutToStart ∧ programP1.len.toNat % 8 = 0 ∧ programP1.bufferReadable := by
  unfold State.aboutToStart State.bufferReadable
  decide

theorem witness_call_steps : 1 < 1 + (4 + 14 * (programP1.len.toNat / 8)) ∧
    18 < 1 + (4 + 14 * (programP1.len.toNat / 8)) ∧ programP1.len.toNat * 255 < 2 ^ 64 := by decide

theorem witness_bad_length : programP3a.aboutToStart ∧ programP3a.len.toNat % 8 ≠ 0 := by
  unfold State.aboutToStart
  decide

theorem witness_zero_length : programP4.aboutToStart ∧ programP4.len = 0#64 := by
  unfold State.aboutToStart
  decide

theorem witness_recovery : ({ programP3a with
    state := .fail, err := 1#4, hostMoves := [.writeLen 8#64, .writeCtrl 1#1] } : State).hostMoves =
      .writeLen 8#64 :: .writeCtrl 1#1 :: [] := rfl

theorem witness_history : ({ programP1 with x := 5#64, acc := 7#64, state := .fail, err := 1#4 } : State).aboutToStart ∧
    ∃ t, steps 1 programP1 = .next t := by
  refine ⟨?_, _, rfl⟩
  unfold State.aboutToStart
  decide

theorem witness_host_reads_and_writes :
    ({ programP1 with hostMoves := [.readStatus] }).hostMoves = .readStatus :: [] ∧
    ({ programP1 with hostMoves := [.writeBase 5#64, .readBase] }).hostMoves = .writeBase 5#64 :: .readBase :: [] ∧
    ({ programP1 with hostMoves := [.writeLen 5#64, .readLen] }).hostMoves = .writeLen 5#64 :: .readLen :: [] ∧
    ({ programP1 with hostMoves := [.readResult] }).hostMoves = .readResult :: [] := ⟨rfl, rfl, rfl, rfl⟩

/-- a read alone of BASE and LEN, with and without a value -/
theorem witness_host_reads_alone : programP1.state ≠ .busy ∧ programP1.baseSet = true ∧ programP1.lenSet = true ∧
    ({ programP1 with hostMoves := [.readBase] }).hostMoves = .readBase :: [] ∧
    ({ programP1 with hostMoves := [.readLen] }).hostMoves = .readLen :: [] ∧
    State.reset.state ≠ .busy ∧ State.reset.baseSet = false ∧ State.reset.lenSet = false := by decide

/-- a unit in DONE: with nothing from outside, with a move that leaves it so, and with the two that end DONE -/
theorem witness_done_goes_on :
    step { programP1 with state := .done, hostMoves := [] } = .next { programP1 with state := .done, hostMoves := [] } ∧
    (∃ t, step { programP1 with state := .done, hostMoves := [.readLen] } = .next t ∧ t.state = .done) ∧
    (∃ t, step { programP1 with state := .done } = .next t ∧ t.state ≠ .done) ∧
    (∃ t, step { programP1 with state := .done, hostMoves := [.reset] } = .next t ∧ t.state ≠ .done) :=
  ⟨rfl, ⟨_, rfl, rfl⟩, ⟨_, rfl, by decide⟩, ⟨_, rfl, by decide⟩⟩

/-- a BUSY unit meets the control invariant whatever move comes next, so each clause on a move has its state -/
theorem witness_busy_moves (l : List HostMove) :
    ({ programP1AtAccum with hostMoves := l } : State).Inv ∧
    ({ programP1AtAccum with hostMoves := l } : State).state = .busy ∧
    ({ programP1AtAccum with hostMoves := l } : State).hostMoves = l :=
  have h := witness_control_invariant
  ⟨⟨h.phaseLegal, h.busyIffPhase, h.errInFail, h.errElsewhere, h.operandsSet, h.lengthChecked, h.wordBound, h.wordLeft⟩,
    rfl, rfl⟩

/-- the two clauses on `putByte` at the edges of the buffer 0x1000 to 0x1007 -/
theorem witness_put_byte : programP1AtAccum.inBuffer 0x1000 = true ∧ programP1AtAccum.inBuffer 0x1007 = true ∧
    programP1AtAccum.inBuffer 0x1008 = false ∧ programP1AtAccum.inBuffer 0xFFF = false := by decide

end Sys2Proof.Tests
end

section
/-! The host's moves: what a step does when the host's next move is a write, a read, or a write of CTRL
(10_state R31 to R36). -/

namespace Sys2Proof.Machine

/-- A move that is neither `pass` nor a write of CTRL is the whole step. -/
theorem step_of_move {st : State} {mv : HostMove} {rest : List HostMove} (h : st.hostMoves = mv :: rest)
    (hp : mv ≠ .pass) (hc : ∀ v, mv ≠ .writeCtrl v) : step st = hostMove mv (st.setHostMoves rest) := by
  rw [step, fetch_move h hp hc]

theorem step_of_writeCtrl_one {st : State} {rest : List HostMove} (h : st.hostMoves = .writeCtrl 1#1 :: rest) :
    step st = exec .start (st.setHostMoves rest) := by
  rw [step, fetch_writeCtrl h, fetchCtrl_one]

theorem step_of_writeCtrl_zero {st : State} {rest : List HostMove} (h : st.hostMoves = .writeCtrl 0#1 :: rest) :
    step st = .next (st.setHostMoves rest) := by
  rw [step, fetch_writeCtrl h, fetchCtrl_zero]

theorem step_of_readCtrl {st : State} {rest : List HostMove} (h : st.hostMoves = .readCtrl :: rest) :
    step st = .next { st with hostMoves := rest, hostReplies := st.hostReplies ++ [.ctrl 0#1] } :=
  step_of_move h (by simp) (by simp)

/-- Settles O39: a written CTRL is fetched as START or as nothing, a read answers 0. -/
theorem ctrlIsTheStartCommand : Obligations.CtrlIsTheStartCommand :=
  fun _ _ => ⟨step_of_writeCtrl_one, step_of_writeCtrl_zero, step_of_readCtrl⟩

theorem exec_start_of_busy {st : State} (hb : st.state = .busy) : exec .start st = .next st :=
  if_pos hb

theorem exec_start_of_not_busy {st : State} (hb : st.state ≠ .busy) : exec .start st = .next st.beginCall :=
  if_neg hb

/-- In BUSY a write of CTRL does nothing, whichever value is written (R33, R105). -/
theorem step_of_writeCtrl_of_busy {st : State} {c : BitVec 1} {rest : List HostMove} (hb : st.state = .busy)
    (h : st.hostMoves = .writeCtrl c :: rest) : step st = .next (st.setHostMoves rest) := by
  rcases (by decide : ∀ v : BitVec 1, v = 1#1 ∨ v = 0#1) c with rfl | rfl
  · rw [step_of_writeCtrl_one h, exec_start_of_busy (by exact hb)]
  · exact step_of_writeCtrl_zero h

theorem hostWriteBase_of_busy {st : State} (v : Word) (hb : st.state = .busy) : hostWriteBase v st = st :=
  if_pos hb

theorem hostWriteLen_of_busy {st : State} (v : Word) (hb : st.state = .busy) : hostWriteLen v st = st :=
  if_pos hb

theorem hostReadBase_of_set {st : State} (h : st.baseSet = true) : hostReadBase st = st.pushReply (.base st.base) := by
  rw [hostReadBase, State.resolveBase_of_set h]

theorem hostReadLen_of_set {st : State} (h : st.lenSet = true) : hostReadLen st = st.pushReply (.len st.len) := by
  rw [hostReadLen, State.resolveLen_of_set h]

theorem hostReadResult_of_not_done {st : State} (h : st.state ≠ .done) :
    hostReadResult st = (st.pushReply (.result (Config.freeWord st.draws .result))).countDraw :=
  if_neg h

/-- STATUS reads as 0x01 in a call: STATE is BUSY, and ERR is 0 outside FAIL (R34, R36). -/
theorem State.Inv.statusByte_of_busy {st : State} (hi : st.Inv) (hb : st.state = .busy) : st.statusByte = 0x01#8 := by
  have he : st.err = 0#4 := hi.errElsewhere (by simp [hb])
  rw [State.statusByte, he, hb]
  rfl

/-- Settles O58: each move is answered by its own rule, BASE and LEN holding values in a call. -/
theorem busyUnitIgnoresHostWrites : Obligations.BusyUnitIgnoresHostWrites := by
  intro st v c rest hi hb
  obtain ⟨hbase, hlen⟩ := hi.operandsSet hb
  have hbr : (st.setHostMoves rest).state = .busy := hb
  refine ⟨fun h => ?writeBase, fun h => ?writeLen, step_of_writeCtrl_of_busy hb, fun h => ?readStatus,
    fun h => ?readBase, fun h => ?readLen, step_of_readCtrl, fun h => ?readResult⟩
  case readResult =>
    refine ⟨Config.freeWord st.draws .result, ?_⟩
    rw [step_of_move h (by simp) (by simp), hostMove, hostReadResult_of_not_done (by simp [hb])]
    rfl
  all_goals rw [step_of_move h (by simp) (by simp), hostMove]
  case writeBase => rw [hostWriteBase_of_busy v hbr]; rfl
  case writeLen => rw [hostWriteLen_of_busy v hbr]; rfl
  case readStatus => rw [← hi.statusByte_of_busy hb]; rfl
  case readBase => rw [hostReadBase_of_set (by exact hbase)]; rfl
  case readLen => rw [hostReadLen_of_set (by exact hlen)]; rfl

end Sys2Proof.Machine
end

section
/-! Noninterference of a call (10_state R38): two calls on the same BASE, LEN, buffer and parameters agree, step by step,
on every register that is still to be read. -/

namespace Sys2Proof.Machine

/-- The two units agree on the registers that the schedule reads from PHASE `p` on before it writes them (R104); ACC and
W, live through the whole call, stand in `SameCall`. -/
def SameLive (p : BitVec 5) (st u : State) : Prop :=
  match p.toNat with
  | 3 | 4 | 16 => u.table = st.table
  | 5 | 12 => u.table = st.table ∧ u.x = st.x
  | 6 | 7 | 8 | 9 => u.table = st.table ∧ u.x = st.x ∧ u.b = st.b
  | 10 => u.table = st.table ∧ u.x = st.x ∧ u.idx = st.idx
  | 11 => u.table = st.table ∧ u.x = st.x ∧ u.m = st.m
  | 13 | 14 | 15 => u.table = st.table ∧ u.s = st.s
  | _ => True

/-- Two units with nothing to come from outside that are at the same point of the same call. -/
structure SameCall (st u : State) : Prop where
  noMoves : st.hostMoves = [] ∧ u.hostMoves = []
  base : u.base = st.base
  len : u.len = st.len
  mem : u.mem = st.mem
  readable : u.readable = st.readable
  byteOrder : u.byteOrder = st.byteOrder
  phase : u.phase = st.phase
  state : u.state = st.state
  err : u.err = st.err
  acc : u.acc = st.acc
  w : u.w = st.w
  live : SameLive st.phase st u
  result : st.state = .done → u.result = st.result

/-- Both units go on, at the same point of the call, or both stop for the same reason. -/
inductive SameOutcome : Host.Outcome State Fault Refusal → Host.Outcome State Fault Refusal → Prop where
  | next {t v : State} (h : SameCall t v) : SameOutcome (.next t) (.next v)
  | fault (f : Fault) : SameOutcome (.fault f) (.fault f)
  | refused (r : Refusal) : SameOutcome (.refused r) (.refused r)

theorem SameOutcome.exists_next {t : State} {o : Host.Outcome State Fault Refusal} (h : SameOutcome (.next t) o) :
    ∃ v, o = .next v ∧ SameCall t v := by
  cases h with
  | next h => exact ⟨_, rfl, h⟩

theorem SameCall.outcome_eq {st u : State} (h : SameCall st u) : u.outcome = st.outcome := by
  unfold State.outcome
  rw [h.state, h.err]
  split
  · next hd => rw [h.result hd]
  · rfl

/-- MemRead depends on the contents of the buffer address space and on Readable alone. -/
theorem memRead_congr {st u : State} (hm : u.mem = st.mem) (hr : u.readable = st.readable) (addr n : Nat) :
    memRead u addr n = memRead st addr n := by
  have hread (a : Nat) : u.isReadable a = st.isReadable a := by rw [State.isReadable, State.isReadable, hr]
  induction n generalizing addr with
  | zero => rfl
  | succ n ih => simp only [memRead, hread, hm, ih]

/-- A PHASE code that decodes to an operation is that operation's code (R90). -/
theorem encode_of_decode_phase {c : BitVec 5} {i : Instr} (h : decode (.phase c) = .ok i) : encode i = .phase c := by
  have key : ∀ c : BitVec 5, (decode (.phase c)).toOption.all (fun i => encode i == .phase c) = true := by decide
  simpa [h, Except.toOption] using key c

/-- A micro-operation takes two units at its point of a call to its successor's point of that call: what it computes
comes from live registers only. `{ h with … }` carries over the agreements it does not touch (the frame). -/
theorem exec_of_sameCall {st u : State} {i : Instr} (h : SameCall st u) (hi : encode i = .phase st.phase) :
    SameOutcome (exec i st) (exec i u) := by
  have hl := h.live
  cases i
  case start => cases hi
  all_goals
    have hp := Code.phase.inj hi
    rw [← hp] at hl
  case chklen =>
    simp only [exec, execChklen, h.len]
    split
    · exact .next { h with phase := rfl, state := rfl, err := rfl, live := trivial, result := nofun }
    · exact .next { h with phase := rfl, live := trivial }
  case tblgen => exact .next { h with phase := rfl, live := rfl }
  case tstw =>
    simp only [exec, execTstw, h.len, h.w]
    split
    · exact .next { h with phase := rfl, live := trivial }
    · exact .next { h with phase := rfl, live := hl }
  case ldw =>
    simp only [exec, execLdw, h.base, h.w, h.byteOrder, memRead_congr h.mem h.readable]
    split
    · exact .next { h with phase := rfl, live := ⟨hl, rfl⟩ }
    · exact .fault _
  case sgnx =>
    obtain ⟨ht, hx⟩ := hl
    exact .next { h with phase := rfl, live := ⟨ht, hx, congrArg signBits hx⟩ }
  case fold33 =>
    obtain ⟨ht, hx, hbits⟩ := hl
    exact .next { h with phase := rfl, live := ⟨ht, hx, congrArg (foldStep · 33) hbits⟩ }
  case fold18 =>
    obtain ⟨ht, hx, hbits⟩ := hl
    exact .next { h with phase := rfl, live := ⟨ht, hx, congrArg (foldStep · 18) hbits⟩ }
  case fold12 =>
    obtain ⟨ht, hx, hbits⟩ := hl
    exact .next { h with phase := rfl, live := ⟨ht, hx, congrArg (foldStep · 12) hbits⟩ }
  case idxm =>
    obtain ⟨ht, hx, hbits⟩ := hl
    exact .next { h with phase := rfl, live := ⟨ht, hx, congrArg (·.extractLsb' 0 8) hbits⟩ }
  case lut =>
    obtain ⟨ht, hx, hidx⟩ := hl
    exact .next { h with phase := rfl, live := ⟨ht, hx, congrArg₂ tableEntry ht hidx⟩ }
  case msk =>
    obtain ⟨ht, hx, hm⟩ := hl
    exact .next { h with phase := rfl, live := ⟨ht, congrArg₂ (· &&& ·) hx hm⟩ }
  case hs8 =>
    obtain ⟨ht, hx⟩ := hl
    exact .next { h with phase := rfl, live := ⟨ht, congrArg sumLanes hx⟩ }
  case hs16 =>
    obtain ⟨ht, hs⟩ := hl
    exact .next { h with phase := rfl, live := ⟨ht, congrArg sumPairs hs⟩ }
  case hs32 =>
    obtain ⟨ht, hs⟩ := hl
    exact .next { h with phase := rfl, live := ⟨ht, congrArg sumHalves hs⟩ }
  case accum =>
    obtain ⟨ht, hs⟩ := hl
    exact .next { h with phase := rfl, acc := congrArg₂ (· + ·) h.acc hs, live := ht }
  case incw => exact .next { h with phase := rfl, w := congrArg (· + 1#61) h.w, live := hl }
  case fin => exact .next { h with phase := rfl, state := rfl, live := trivial, result := fun _ => h.acc }

theorem step_of_sameCall {st u : State} (h : SameCall st u) : SameOutcome (step st) (step u) := by
  obtain ⟨hst, hu⟩ := h.noMoves
  rw [step, step, fetch_nil hst, fetch_nil hu]
  by_cases hb : st.state = .busy
  · have hbu : u.state = .busy := h.state.trans hb
    rcases decode_phase_cases st.phase with ⟨i, hd⟩ | ⟨hd, _⟩ | ⟨hd, _⟩
    · rw [fetchUnit_run hb hd, fetchUnit_run hbu (h.phase ▸ hd)]
      exact exec_of_sameCall h (encode_of_decode_phase hd)
    · simp only [fetchUnit, hb, hbu, h.phase, hd, if_true]
      exact .next h
    · simp only [fetchUnit, hb, hbu, h.phase, hd, if_true]
      exact .fault _
  · rw [fetchUnit_wait hb, fetchUnit_wait (h.state ▸ hb)]
    exact .next h

theorem steps_of_sameCall (k : Nat) {st u : State} (h : SameCall st u) : SameOutcome (steps k st) (steps k u) := by
  induction k generalizing st u with
  | zero => exact .next h
  | succ k ih =>
    have hs := step_of_sameCall h
    rw [steps, steps]
    generalize step st = o, step u = o' at hs ⊢
    cases hs with
    | next h' => exact ih h'
    | fault f => exact .fault f
    | refused r => exact .refused r

/-- The state START leaves of a unit that is about to start (R105). -/
def State.started (st : State) : State :=
  { st with hostMoves := [], acc := 0#64, w := 0#61, err := 0#4, state := .busy, phase := Phase.chklen }

theorem step_of_aboutToStart {st : State} (h : st.aboutToStart) : step st = .next st.started := by
  obtain ⟨hb, hbase, hlen, hmoves⟩ := h
  rw [step_of_writeCtrl_one hmoves, exec_start_of_not_busy (by exact hb),
    State.beginCall_of_set (by exact hbase) (by exact hlen)]
  rfl

/-- START forgets the history: CHKLEN finds nothing live but BASE, LEN, the buffer and the parameters. -/
theorem sameCall_started {st u : State} (hbase : u.base = st.base) (hlen : u.len = st.len) (hmem : u.mem = st.mem)
    (hread : u.readable = st.readable) (horder : u.byteOrder = st.byteOrder) : SameCall st.started u.started where
  noMoves := ⟨rfl, rfl⟩
  base := hbase
  len := hlen
  mem := hmem
  readable := hread
  byteOrder := horder
  phase := rfl
  state := rfl
  err := rfl
  acc := rfl
  w := rfl
  live := trivial
  result := nofun

/-- Settles O54: START puts the two units at the same point of the same call, where every step keeps them. -/
theorem outcomeDoesNotDependOnHistory : Obligations.OutcomeDoesNotDependOnHistory := by
  intro st u k t hst hu hbase hlen hmem hread horder h
  rw [steps_succ_of_next (step_of_aboutToStart hst)] at h
  rw [steps_succ_of_next (step_of_aboutToStart hu)]
  have hs := steps_of_sameCall k (sameCall_started hbase hlen hmem hread horder)
  rw [h] at hs
  obtain ⟨v, hv, hc⟩ := hs.exists_next
  exact ⟨v, hv, hc.outcome_eq⟩

end Sys2Proof.Machine
end

section
/-! Byte lanes (00_scope R8): how the lanes make up a word, which byte of the buffer a lane holds in either byte order
(20_memory R62), and what LDW loads. -/

namespace Sys2Proof.Machine

/-- The lanes of a word written out byte by byte, lane 7 first. -/
theorem lane_append_bytes (b : Fin 8 → BitVec 8) (k : Fin 8) :
    lane (b 7 ++ b 6 ++ b 5 ++ b 4 ++ b 3 ++ b 2 ++ b 1 ++ b 0) k.val = b k := by
  unfold lane
  fin_cases k <;>
    simp (disch := decide) only [BitVec.extractLsb'_append_eq_of_le, BitVec.extractLsb'_append_eq_of_add_le] <;>
    exact BitVec.extractLsb'_eq_self

theorem lane_and (x y : BitVec 64) (k : Nat) : lane (x &&& y) k = lane x k &&& lane y k :=
  BitVec.extractLsb'_and

/-- The top bit of lane `k` is the word's bit `8k + 7`. -/
theorem getLsbD_lane_seven (x : BitVec 64) (k : Nat) : (lane x k).getLsbD 7 = x.getLsbD (8 * k + 7) := by
  simp [lane]

theorem toNat_eq_sum_lanes (x : BitVec 64) : x.toNat = ∑ k ∈ Finset.range 8, 2 ^ (8 * k) * (lane x k).toNat := by
  simp only [lane, BitVec.extractLsb'_toNat, Nat.shiftRight_eq_div_pow, Finset.sum_range_succ, Finset.sum_range_zero]
  omega

/-- The offset, within a word of the buffer, of the byte that lane `k` holds (R62). That it is a permutation is why the
byte order does not show in a sum over the lanes (R63). -/
def byteOfLane : ByteOrder → Equiv.Perm (Fin 8)
  | .le => Equiv.refl _
  | .be => Fin.revPerm

theorem lane_assembleWord (o : ByteOrder) (bytes : List (BitVec 8)) (k : Fin 8) :
    lane (assembleWord o bytes) k.val = bytes.getD (byteOfLane o k).val 0#8 := by
  cases o with
  | le => exact lane_append_bytes (fun j => bytes.getD j.val 0#8) k
  | be => exact lane_append_bytes (fun j => bytes.getD j.rev.val 0#8) k

theorem lane_bufferWord (st : State) (w : Nat) (k : Fin 8) :
    lane (st.bufferWord w) k.val = st.bufferByte (8 * w + (byteOfLane st.byteOrder k).val) := by
  simp [State.bufferWord, lane_assembleWord]

/-- A sum over the lanes of a word of the buffer is the sum over its bytes, in either byte order. -/
theorem sum_lanes_bufferWord (st : State) (w : Nat) (f : BitVec 8 → Nat) :
    ∑ k : Fin 8, f (lane (st.bufferWord w) k.val) = ∑ j : Fin 8, f (st.bufferByte (8 * w + j.val)) := by
  simp only [lane_bufferWord]
  exact Equiv.sum_comp (byteOfLane st.byteOrder) fun j => f (st.bufferByte (8 * w + j.val))

/-- The bytes from the effective address on are those of word W of the buffer (R60, R136). -/
theorem byteAt_effectiveAddress (st : State) (t : Nat) :
    Memory.byteAt st.mem (effectiveAddress st.base st.w + t) = st.bufferByte (8 * st.w.toNat + t) := by
  rw [State.bufferByte, effectiveAddress, Nat.add_assoc]

/-- Over a readable word LDW goes on, with word W of the buffer in X. -/
theorem exec_ldw_of_readable {st : State}
    (h : ∀ t, t < 8 → st.isReadable (effectiveAddress st.base st.w + t) = true) :
    exec .ldw st = .next { st with x := st.bufferWord st.w.toNat, phase := Phase.sgnx } := by
  simp only [exec, execLdw_of_readable h, byteAt_effectiveAddress]
  rfl

/-- LDW goes on over a readable word only. -/
theorem readable_of_exec_ldw {st t : State} (h : exec .ldw st = .next t) :
    ∀ j, j < 8 → st.isReadable (effectiveAddress st.base st.w + j) = true := by
  rcases execLdw_cases st with ⟨bytes, hbytes, _⟩ | ⟨a, _, hfault⟩
  · exact ((memRead_eq_ok_iff _ _ _ _).1 hbytes).1
  · rw [exec, hfault] at h
    cases h

/-- Settles O16: X is word W of the buffer, whose lanes are its bytes in the unit's order. -/
theorem loadedLanesAreTheBytes : Obligations.LoadedLanesAreTheBytes := by
  intro st t h
  rw [exec_ldw_of_readable (readable_of_exec_ldw h)] at h
  cases h
  refine ⟨rfl, fun k => ?_⟩
  rw [lane_bufferWord, State.bufferByte, ← Nat.add_assoc]
  cases st.byteOrder with
  | le => rfl
  | be => rw [byteOfLane, Fin.revPerm_apply, Fin.val_rev, Nat.add_comm k.val, ← Nat.sub_sub]

end Sys2Proof.Machine
end

section
/-! The filter on a word, lane by lane (43_filter R150, R155, R157; 41_table R122, R127). -/

namespace Sys2Proof.Machine

theorem lane_tbl (i : BitVec 8) (k : Fin 8) : lane (tbl i) k.val = maskLane i k :=
  lane_append_bytes (maskLane i) k

/-- SGNX keeps bit 7 of each lane and no other bit (R141). -/
theorem getLsbD_signBits (x : BitVec 64) (p : Nat) :
    (signBits x).getLsbD p = (x.getLsbD p && decide (p % 8 = 7)) := by
  have hmask : ∀ p < 64, (0x8080808080808080#64).getLsbD p = decide (p % 8 = 7) := by decide
  rw [signBits, BitVec.getLsbD_and]
  by_cases hp : p < 64
  · rw [hmask p hp]
  · simp [BitVec.getLsbD_of_ge x p (by omega)]

/-- The index theorem: of the eight bits that the three fold steps bring to bit `j`, one is a sign bit (R150). -/
theorem getLsbD_indexOfWord (x : BitVec 64) (j : Fin 8) :
    (indexOfWord x).getLsbD j.val = x.getLsbD (8 * (laneOfIndexBit j).val + 7) := by
  fin_cases j <;> simp [indexOfWord, foldStep, getLsbD_signBits, laneOfIndexBit, -BitVec.getLsbD_eq_getElem]

/-- The table undoes the fold: the entry at a word's index is 0xFF in the lanes whose sign bit is set (R127). -/
theorem lane_tbl_indexOfWord (x : BitVec 64) (k : Fin 8) :
    lane (tbl (indexOfWord x)) k.val = if (lane x k.val).getLsbD 7 then 0xFF#8 else 0x00#8 := by
  have hinv : ∀ k, laneOfIndexBit (indexBitOfLane k) = k := by decide
  rw [lane_tbl, maskLane, getLsbD_indexOfWord, hinv, getLsbD_lane_seven]

theorem compareMask_eq_and (v : BitVec 8) : compareMask v = v &&& if v.getLsbD 7 then 0xFF#8 else 0x00#8 := by
  revert v
  decide

/-- The mask that the filter finds puts every lane through CM (R157). -/
theorem lane_and_tbl_indexOfWord (x : BitVec 64) (k : Fin 8) :
    lane (x &&& tbl (indexOfWord x)) k.val = compareMask (lane x k.val) := by
  rw [lane_and, lane_tbl_indexOfWord, compareMask_eq_and]

end Sys2Proof.Machine
end

section
/-! The reduction, stage by stage (44_reduce R166, R169, R172): no stage carries from one field into the next. -/

namespace Sys2Proof.Machine

/-- What a mask that keeps some lanes whole and clears the others leaves of a word. -/
theorem toNat_and_of_lanes {m : BitVec 64} {keep : Nat → Bool}
    (hm : ∀ k < 8, lane m k = if keep k then 0xFF#8 else 0x00#8) (x : BitVec 64) :
    (x &&& m).toNat = ∑ k ∈ Finset.range 8, if keep k then 2 ^ (8 * k) * (lane x k).toNat else 0 := by
  rw [toNat_eq_sum_lanes]
  refine Finset.sum_congr rfl fun k hk => ?_
  rw [lane_and, hm k (Finset.mem_range.1 hk)]
  split
  · rw [show 0xFF#8 = BitVec.allOnes 8 from rfl, BitVec.and_allOnes]
  · rw [BitVec.and_zero]
    rfl

theorem toNat_sumLanes (x : BitVec 64) : (sumLanes x).toNat =
    ((lane x 0).toNat + (lane x 1).toNat) + 2 ^ 16 * ((lane x 2).toNat + (lane x 3).toNat) +
      2 ^ 32 * ((lane x 4).toNat + (lane x 5).toNat) + 2 ^ 48 * ((lane x 6).toNat + (lane x 7).toNat) := by
  have hodd : (x &&& 0xFF00FF00FF00FF00#64).toNat = 2 ^ 8 * (lane x 1).toNat + 2 ^ 24 * (lane x 3).toNat +
      2 ^ 40 * (lane x 5).toNat + 2 ^ 56 * (lane x 7).toNat := by
    rw [toNat_and_of_lanes (keep := (· % 2 = 1)) (by decide)]
    simp [Finset.sum_range_succ]
  have heven : (x &&& 0x00FF00FF00FF00FF#64).toNat = (lane x 0).toNat + 2 ^ 16 * (lane x 2).toNat +
      2 ^ 32 * (lane x 4).toNat + 2 ^ 48 * (lane x 6).toNat := by
    rw [toNat_and_of_lanes (keep := (· % 2 = 0)) (by decide)]
    simp [Finset.sum_range_succ]
  simp only [sumLanes, BitVec.toNat_add, BitVec.toNat_ushiftRight, Nat.shiftRight_eq_div_pow, hodd, heven]
  omega

/-- A 16-bit field of a word is made of two lanes. -/
theorem toNat_extract_two_lanes (s : BitVec 64) (q : Nat) :
    (s.extractLsb' (16 * q) 16).toNat = (lane s (2 * q)).toNat + 2 ^ 8 * (lane s (2 * q + 1)).toNat := by
  simp only [lane, BitVec.extractLsb'_toNat, show 8 * (2 * q) = 16 * q by ring,
    show 8 * (2 * q + 1) = 16 * q + 8 by ring, Nat.shiftRight_add]
  omega

theorem toNat_sumPairs (s : BitVec 64) : (sumPairs s).toNat =
    ((s.extractLsb' 0 16).toNat + (s.extractLsb' 16 16).toNat) +
      2 ^ 32 * ((s.extractLsb' 32 16).toNat + (s.extractLsb' 48 16).toNat) := by
  have hodd : (s &&& 0xFFFF0000FFFF0000#64).toNat = 2 ^ 16 * (lane s 2).toNat + 2 ^ 24 * (lane s 3).toNat +
      2 ^ 48 * (lane s 6).toNat + 2 ^ 56 * (lane s 7).toNat := by
    rw [toNat_and_of_lanes (keep := (2 ≤ · % 4)) (by decide)]
    simp [Finset.sum_range_succ]
  have heven : (s &&& 0x0000FFFF0000FFFF#64).toNat = (lane s 0).toNat + 2 ^ 8 * (lane s 1).toNat +
      2 ^ 32 * (lane s 4).toNat + 2 ^ 40 * (lane s 5).toNat := by
    rw [toNat_and_of_lanes (keep := (· % 4 < 2)) (by decide)]
    simp [Finset.sum_range_succ]
  have h0 := toNat_extract_two_lanes s 0
  have h1 := toNat_extract_two_lanes s 1
  have h2 := toNat_extract_two_lanes s 2
  have h3 := toNat_extract_two_lanes s 3
  simp only [Nat.reduceMul, Nat.reduceAdd] at h0 h1 h2 h3
  simp only [sumPairs, BitVec.toNat_add, BitVec.toNat_ushiftRight, Nat.shiftRight_eq_div_pow, hodd, heven]
  omega

/-- HS8: each 16-bit field becomes the sum of its two lanes (R166). -/
theorem extract_sumLanes (x : BitVec 64) (q : Fin 4) : ((sumLanes x).extractLsb' (16 * q.val) 16).toNat =
    (lane x (2 * q.val)).toNat + (lane x (2 * q.val + 1)).toNat := by
  rw [BitVec.extractLsb'_toNat, Nat.shiftRight_eq_div_pow, toNat_sumLanes]
  fin_cases q <;> simp <;> omega

/-- HS16: each 32-bit field becomes the sum of its two 16-bit fields (R169). -/
theorem extract_sumPairs (s : BitVec 64) (q : Fin 2) : ((sumPairs s).extractLsb' (32 * q.val) 32).toNat =
    (s.extractLsb' (32 * q.val) 16).toNat + (s.extractLsb' (32 * q.val + 16) 16).toNat := by
  have hlt (p : Nat) := (s.extractLsb' p 16).isLt
  have h0 := hlt 0
  have h1 := hlt 16
  have h2 := hlt 32
  have h3 := hlt 48
  rw [BitVec.extractLsb'_toNat, Nat.shiftRight_eq_div_pow, toNat_sumPairs]
  fin_cases q <;> simp only [Nat.reduceMul, Nat.reduceAdd, Nat.reducePow] <;> omega

/-- HS32: S becomes the sum of its two halves (R171). -/
theorem toNat_sumHalves (s : BitVec 64) : (sumHalves s).toNat =
    (s.extractLsb' 0 32).toNat + (s.extractLsb' 32 32).toNat := by
  have hlow : (s &&& 0x00000000FFFFFFFF#64).toNat = s.toNat % 2 ^ 32 :=
    (BitVec.toNat_and _ _).trans (Nat.and_two_pow_sub_one_eq_mod s.toNat 32)
  have hhigh : s.toNat / 2 ^ 32 < 2 ^ 32 := Nat.div_lt_of_lt_mul s.isLt
  have hsum : s.toNat / 2 ^ 32 + s.toNat % 2 ^ 32 < 2 ^ 64 := by omega
  rw [sumHalves, BitVec.toNat_add, BitVec.toNat_ushiftRight, hlow, BitVec.extractLsb'_toNat, BitVec.extractLsb'_toNat,
    Nat.shiftRight_zero, Nat.shiftRight_eq_div_pow, Nat.mod_eq_of_lt hsum, Nat.mod_eq_of_lt hhigh, Nat.add_comm]

/-- The three stages make the exact sum of the eight lanes (R172). -/
theorem toNat_reduction (x : BitVec 64) :
    (sumHalves (sumPairs (sumLanes x))).toNat = ∑ k : Fin 8, (lane x k.val).toNat := by
  have hpairs := extract_sumPairs (sumLanes x)
  have hlanes := extract_sumLanes x
  calc (sumHalves (sumPairs (sumLanes x))).toNat
    _ = ((sumPairs (sumLanes x)).extractLsb' 0 32).toNat + ((sumPairs (sumLanes x)).extractLsb' 32 32).toNat :=
      toNat_sumHalves _
    _ = (((sumLanes x).extractLsb' 0 16).toNat + ((sumLanes x).extractLsb' 16 16).toNat) +
        (((sumLanes x).extractLsb' 32 16).toNat + ((sumLanes x).extractLsb' 48 16).toNat) :=
      congrArg₂ (· + ·) (hpairs 0) (hpairs 1)
    _ = (((lane x 0).toNat + (lane x 1).toNat) + ((lane x 2).toNat + (lane x 3).toNat)) +
        (((lane x 4).toNat + (lane x 5).toNat) + ((lane x 6).toNat + (lane x 7).toNat)) :=
      congrArg₂ (· + ·) (congrArg₂ (· + ·) (hlanes 0) (hlanes 1)) (congrArg₂ (· + ·) (hlanes 2) (hlanes 3))
    _ = ∑ k : Fin 8, (lane x k.val).toNat := by
      simp only [Fin.sum_univ_eight, ← Nat.add_assoc]
      rfl

end Sys2Proof.Machine
end

section
/-! The macro WORD (30_encoding R94, 44_reduce R177), run as the schedule runs it (40_control R104). -/

namespace Sys2Proof.Machine

/-- The macro WORD (R94). -/
def wordOps : List Instr :=
  [.ldw] ++ filterOps ++ hsumOps ++ [.accum]

/-- What the word pass adds to ACC: the sum of the qualifying bytes of word `w`. -/
theorem toNat_reduction_of_masked_bufferWord (st : State) (w : Nat) :
    (sumHalves (sumPairs (sumLanes (st.bufferWord w &&& tbl (indexOfWord (st.bufferWord w)))))).toNat =
      reference ((List.range 8).map fun j => st.bufferByte (8 * w + j)) := by
  simp only [toNat_reduction, lane_and_tbl_indexOfWord]
  rw [sum_lanes_bufferWord st w fun v => (compareMask v).toNat, reference, List.map_map, Fin.sum_univ_eight]
  simp [List.range_succ, Nat.add_assoc]

/-- WORD over a readable word adds the sum of its qualifying bytes to ACC, in either byte order (R177). -/
theorem execAll_wordOps {st : State} (htable : st.tableBuilt)
    (hread : ∀ t, t < 8 → st.isReadable (effectiveAddress st.base st.w + t) = true) :
    ∃ t, execAll wordOps st = .next t ∧
      t.acc = st.acc + BitVec.ofNat 64 (reference ((List.range 8).map fun j => st.bufferByte (8 * st.w.toNat + j))) ∧
      t = { st with x := t.x, b := t.b, idx := t.idx, m := t.m, s := t.s, acc := t.acc, phase := Phase.incw } := by
  refine ⟨_, (execAll_cons_of_next (exec_ldw_of_readable hread)).trans rfl, ?_, rfl⟩
  rw [← toNat_reduction_of_masked_bufferWord, BitVec.ofNat_toNat, BitVec.setWidth_eq, ← htable]
  rfl

/-- The operations stand in the order of their codes, from the code `c` on, within LDW to ACCUM: between these the
schedule has no branch (R104). -/
def inSchedule : BitVec 5 → List Instr → Bool
  | _, [] => true
  | c, i :: rest => encode i == .phase c && decide (4 ≤ c.toNat ∧ c.toNat ≤ 15) && inSchedule (c + 1#5) rest

theorem inSchedule_wordOps : inSchedule Phase.ldw wordOps = true := by decide

theorem decode_encode (i : Instr) : decode (encode i) = .ok i := by
  cases i <;> rfl

/-- An operation from LDW to ACCUM goes on to the next code, and the unit stays in its call with nothing to come from
outside. -/
theorem exec_next_code {i : Instr} {c : BitVec 5} {st t : State} (hi : encode i = .phase c) (hlo : 4 ≤ c.toNat)
    (hhi : c.toNat ≤ 15) (h : exec i st = .next t) :
    t.phase = c + 1#5 ∧ t.state = st.state ∧ t.hostMoves = st.hostMoves := by
  cases i <;> cases hi
  case chklen | tblgen | tstw => exact absurd hlo (by decide)
  case incw | fin => exact absurd hhi (by decide)
  case ldw =>
    rw [exec_ldw_of_readable (readable_of_exec_ldw h)] at h
    cases h
    exact ⟨rfl, rfl, rfl⟩
  all_goals
    cases h
    exact ⟨rfl, rfl, rfl⟩

/-- The unit's turn: with nothing from outside it performs the operation PHASE names (R107). -/
theorem step_of_busy {st : State} {i : Instr} (hm : st.hostMoves = []) (hb : st.state = .busy)
    (hi : encode i = .phase st.phase) : step st = exec i st := by
  rw [step, fetch_nil hm, fetchUnit_run hb (hi ▸ decode_encode i)]

theorem steps_of_not_busy {st : State} (hm : st.hostMoves = []) (hb : st.state ≠ .busy) (k : Nat) :
    steps k st = .next st := by
  have hs : step st = .next st := by rw [step, fetch_nil hm, fetchUnit_wait hb]
  induction k with
  | zero => rfl
  | succ k ih => rw [steps_succ_of_next hs, ih]

/-- The unit performs a stretch of the schedule one operation a step. -/
theorem steps_of_execAll {ops : List Instr} {st t : State} (hm : st.hostMoves = []) (hb : st.state = .busy)
    (hops : inSchedule st.phase ops = true) (h : execAll ops st = .next t) : steps ops.length st = .next t := by
  induction ops generalizing st with
  | nil => exact h
  | cons i rest ih =>
    simp only [inSchedule, Bool.and_eq_true, beq_iff_eq, decide_eq_true_eq] at hops
    obtain ⟨⟨hi, hlo, hhi⟩, hrest⟩ := hops
    cases hu : exec i st with
    | next u =>
      obtain ⟨hphase, hstate, hmoves⟩ := exec_next_code hi hlo hhi hu
      rw [execAll_cons_of_next hu] at h
      rw [List.length_cons, steps_succ_of_next ((step_of_busy hm hb hi).trans hu)]
      exact ih (hmoves.trans hm) (hstate.trans hb) (hphase ▸ hrest) h
    | fault f => rw [execAll, hu] at h; cases h
    | refused r => rw [execAll, hu] at h; cases h

end Sys2Proof.Machine
end

section
/-! A whole call on a buffer of a legal length (40_control R104, R109, R110): the loop invariant at TSTW, carried from
START to the last word. Nothing in it speaks of the byte order. -/

namespace Sys2Proof.Machine

theorem reference_append (l r : List (BitVec 8)) : reference (l ++ r) = reference l + reference r := by
  simp [reference]

/-- The buffer's first `m + n` elements are its first `m` and the `n` that follow. -/
theorem State.bufferPrefix_add (st : State) (m n : Nat) :
    st.bufferPrefix (m + n) = st.bufferPrefix m ++ (List.range n).map fun j => st.bufferByte (m + j) := by
  simp [State.bufferPrefix, List.range_add]

theorem toNat_wordCount (len : BitVec 64) : (wordCount len).toNat = len.toNat / 8 := by
  rw [wordCount, BitVec.extractLsb'_toNat, Nat.shiftRight_eq_div_pow]
  omega

theorem lengthRemainder_eq_zero_iff (len : BitVec 64) : lengthRemainder len = 0#3 ↔ len.toNat % 8 = 0 := by
  rw [← BitVec.toNat_inj, lengthRemainder, BitVec.extractLsb'_toNat]
  rfl

theorem tableEntry_fullTable (i : BitVec 8) : tableEntry fullTable i = tbl i := by
  rw [tableEntry, Vector.get_eq_getElem]
  simp [fullTable]

/-- The unit `u` stands at TSTW of the call that `st` was about to start, with `n` words of the buffer added up
(R110). -/
structure AtLoop (st u : State) (n : Nat) : Prop where
  noMoves : u.hostMoves = []
  busy : u.state = .busy
  phase : u.phase = Phase.tstw
  err : u.err = 0#4
  word : u.w.toNat = n
  table : u.tableBuilt
  acc : u.acc = BitVec.ofNat 64 (reference (st.bufferPrefix (8 * n)))
  base : u.base = st.base
  len : u.len = st.len
  mem : u.mem = st.mem
  readable : u.readable = st.readable

/-- START, CHKLEN and TBLGEN bring a call of a legal length to TSTW. -/
theorem steps_to_loop {st : State} (h : st.aboutToStart) (hlen : st.len.toNat % 8 = 0) :
    ∃ u, steps 3 st = .next u ∧ AtLoop st u 0 := by
  have hchk : exec .chklen st.started = .next (st.started.setPhase Phase.tblgen) :=
    if_neg (not_not_intro ((lengthRemainder_eq_zero_iff _).2 hlen))
  refine ⟨(st.started.setTable fullTable).setPhase Phase.tstw, ?_, ?_⟩
  · rw [steps_succ_of_next (step_of_aboutToStart h),
      steps_succ_of_next ((step_of_busy rfl rfl rfl).trans hchk)]
    rfl
  · exact ⟨rfl, rfl, rfl, rfl, rfl, tableEntry_fullTable, rfl, rfl, rfl, rfl, rfl⟩

theorem AtLoop.bufferByte {st u : State} {n : Nat} (h : AtLoop st u n) (i : Nat) :
    u.bufferByte i = st.bufferByte i := by
  rw [State.bufferByte, h.mem, h.base, State.bufferByte]

/-- The word that is left lies in the buffer, so it is readable (R67). -/
theorem AtLoop.word_readable {st u : State} {n : Nat} (h : AtLoop st u n) (hread : st.bufferReadable)
    (hn : n < st.len.toNat / 8) (j : Nat) (hj : j < 8) : u.isReadable (effectiveAddress u.base u.w + j) = true := by
  rw [State.isReadable, h.readable, effectiveAddress, h.base, h.word, Nat.add_assoc]
  exact hread _ (by omega)

theorem AtLoop.step_of_word_left {st u : State} {n : Nat} (h : AtLoop st u n) (hn : n < st.len.toNat / 8) :
    step u = .next (u.setPhase Phase.ldw) := by
  have hleft : u.w ≠ wordCount u.len := by
    rw [← BitVec.toNat_inj.ne, toNat_wordCount, h.word, h.len]
    exact hn.ne
  exact (step_of_busy h.noMoves h.busy (i := .tstw) (by rw [h.phase]; rfl)).trans (if_neg hleft)

/-- WORD adds the next word of the buffer to the sum. -/
theorem AtLoop.steps_wordOps {st u : State} {n : Nat} (h : AtLoop st u n) (hread : st.bufferReadable)
    (hn : n < st.len.toNat / 8) : ∃ t, steps 12 (u.setPhase Phase.ldw) = .next t ∧
      t.acc = BitVec.ofNat 64 (reference (st.bufferPrefix (8 * (n + 1)))) ∧
      t = { u with x := t.x, b := t.b, idx := t.idx, m := t.m, s := t.s, acc := t.acc, phase := Phase.incw } := by
  obtain ⟨t, ht, hacc, hframe⟩ :=
    execAll_wordOps (st := u.setPhase Phase.ldw) h.table (h.word_readable hread hn)
  have hsteps : steps wordOps.length (u.setPhase Phase.ldw) = .next t :=
    steps_of_execAll h.noMoves h.busy inSchedule_wordOps ht
  refine ⟨t, hsteps, ?_, hframe⟩
  have hbyte (i : Nat) : (u.setPhase Phase.ldw).bufferByte i = st.bufferByte i := h.bufferByte i
  simp only [hbyte, State.setPhase_w, State.setPhase_acc, h.word, h.acc] at hacc
  rw [hacc, Nat.mul_succ, State.bufferPrefix_add, reference_append, BitVec.ofNat_add]

/-- While a word is left, TSTW, WORD and INCW bring the unit to TSTW again, one word further. -/
theorem AtLoop.steps_word {st u : State} {n : Nat} (h : AtLoop st u n) (hread : st.bufferReadable)
    (hn : n < st.len.toNat / 8) : ∃ v, steps 14 u = .next v ∧ AtLoop st v (n + 1) := by
  obtain ⟨t, ht, hacc, hframe⟩ := h.steps_wordOps hread hn
  have hm : t.hostMoves = [] := (congrArg State.hostMoves hframe).trans h.noMoves
  have hb : t.state = .busy := (congrArg State.state hframe).trans h.busy
  have hincw : step t = .next ((t.setW (t.w + 1#61)).setPhase Phase.tstw) :=
    step_of_busy hm hb (i := .incw) (by rw [hframe]; rfl)
  have hw : (t.w + 1#61).toNat = n + 1 := by
    have hlen := st.len.isLt
    rw [congrArg State.w hframe, BitVec.toNat_add, h.word]
    exact Nat.mod_eq_of_lt (by simp only [BitVec.toNat_ofNat]; omega)
  refine ⟨(t.setW (t.w + 1#61)).setPhase Phase.tstw, ?_, ?_⟩
  · rw [steps_succ_of_next (h.step_of_word_left hn), steps_add_of_next (k := 1) ht, steps_succ_of_next hincw]
    rfl
  · exact
    { noMoves := hm
      busy := hb
      phase := rfl
      err := (congrArg State.err hframe).trans h.err
      word := hw
      table := fun i => (congrArg (tableEntry ·.table i) hframe).trans (h.table i)
      acc := hacc
      base := (congrArg State.base hframe).trans h.base
      len := (congrArg State.len hframe).trans h.len
      mem := (congrArg State.mem hframe).trans h.mem
      readable := (congrArg State.readable hframe).trans h.readable }

/-- After START and the table, `n` words take `14 n` steps. -/
theorem exists_atLoop {st : State} (h : st.aboutToStart) (hlen : st.len.toNat % 8 = 0) (hread : st.bufferReadable)
    (n : Nat) (hn : n ≤ st.len.toNat / 8) : ∃ u, steps (3 + 14 * n) st = .next u ∧ AtLoop st u n := by
  induction n with
  | zero => exact steps_to_loop h hlen
  | succ n ih =>
    obtain ⟨u, hu, hloop⟩ := ih (by omega)
    obtain ⟨v, hv, hloop'⟩ := hloop.steps_word hread (by omega)
    exact ⟨v, (steps_add_of_next (k := 14) hu).trans hv, hloop'⟩

/-- With no word left, TSTW and FIN end the call with the sum in RESULT. -/
theorem AtLoop.steps_end {st u : State} (h : AtLoop st u (st.len.toNat / 8)) :
    steps 2 u = .next { u with result := u.acc, state := .done, phase := Phase.none } := by
  have hnone : u.w = wordCount u.len := by
    rw [← BitVec.toNat_inj, toNat_wordCount, h.word, h.len]
  have htstw : step u = .next (u.setPhase Phase.fin) :=
    (step_of_busy h.noMoves h.busy (i := .tstw) (by rw [h.phase]; rfl)).trans (if_pos hnone)
  have hfin : step (u.setPhase Phase.fin) = exec .fin (u.setPhase Phase.fin) := step_of_busy h.noMoves h.busy rfl
  rw [steps_succ_of_next htstw, steps_succ_of_next hfin]
  rfl

/-- A call on a readable buffer of a legal length ends in DONE with the reference sum, modulo 2^64 (R109, R186). -/
theorem steps_callSteps_of_readable {st : State} (h : st.aboutToStart) (hlen : st.len.toNat % 8 = 0)
    (hread : st.bufferReadable) :
    ∃ t, steps st.callSteps st = .next t ∧ t.state = .done ∧ t.err = 0#4 ∧ t.phase = Phase.none ∧
      t.result = BitVec.ofNat 64 (reference (st.bufferPrefix st.len.toNat)) ∧
      t.mem = st.mem ∧ t.base = st.base ∧ t.len = st.len := by
  obtain ⟨u, hu, hloop⟩ := exists_atLoop h hlen hread _ le_rfl
  have hcount : st.callSteps = 3 + 14 * (st.len.toNat / 8) + 2 := by
    rw [State.callSteps]
    omega
  have hend := (steps_add_of_next hu).trans hloop.steps_end
  rw [← hcount] at hend
  refine ⟨_, hend, rfl, hloop.err, rfl, ?_, hloop.mem, hloop.base, hloop.len⟩
  rw [← Nat.mul_div_cancel' (Nat.dvd_of_mod_eq_zero hlen)]
  exact hloop.acc

/-- CHKLEN ends a call of a bad length in FAIL, with ERR 1 (R106, R203); then the unit has no step of its own. -/
theorem steps_of_bad_length {st : State} (h : st.aboutToStart) (hlen : st.len.toNat % 8 ≠ 0) (k : Nat) :
    steps (2 + k) st = .next st.started.takePreconditionViolation := by
  have hchk : exec .chklen st.started = .next st.started.takePreconditionViolation :=
    if_pos (mt (lengthRemainder_eq_zero_iff _).1 hlen)
  have hfail : steps 2 st = .next st.started.takePreconditionViolation := by
    rw [steps_succ_of_next (step_of_aboutToStart h), steps_succ_of_next ((step_of_busy rfl rfl rfl).trans hchk)]
    rfl
  rw [steps_add_of_next hfail]
  exact steps_of_not_busy rfl (nofun : CallState.fail ≠ .busy) k

/-- The outcome of a call on the buffer `st` holds: the reference sum, or FAIL with ERR 1 (R186, R188). -/
def State.callOutcome (st : State) : CallState × BitVec 4 × Option (BitVec 64) :=
  if st.len.toNat % 8 = 0 then (.done, 0#4, some (BitVec.ofNat 64 (reference (st.bufferPrefix st.len.toNat))))
  else (.fail, 1#4, none)

theorem steps_callSteps {st : State} (h : st.aboutToStart) (hread : st.len.toNat % 8 = 0 → st.bufferReadable) :
    ∃ t, steps st.callSteps st = .next t ∧ t.state ≠ .busy ∧ t.outcome = st.callOutcome := by
  by_cases hlen : st.len.toNat % 8 = 0
  · obtain ⟨t, ht, hstate, herr, -, hresult, -⟩ := steps_callSteps_of_readable h hlen (hread hlen)
    refine ⟨t, ht, by simp [hstate], ?_⟩
    simp [State.outcome, State.callOutcome, hlen, hstate, herr, hresult]
  · refine ⟨st.started.takePreconditionViolation, ?_, nofun, ?_⟩
    · have hcount : st.callSteps = 2 + (3 + 14 * (st.len.toNat / 8)) := by
        rw [State.callSteps]
        omega
      rw [hcount]
      exact steps_of_bad_length h hlen _
    · rw [State.callOutcome, if_neg hlen]
      rfl

/-- Settles O53: either unit's outcome is that of the buffer, which the byte order has no part in. -/
theorem outcomeDoesNotDependOnByteOrder : Obligations.OutcomeDoesNotDependOnByteOrder := by
  intro st o h hread
  obtain ⟨t, ht, hstate, hout⟩ := steps_callSteps h hread
  obtain ⟨u, hu, -, hout'⟩ := steps_callSteps (st := { st with byteOrder := o }) h hread
  exact ⟨t, u, ht, hu, hstate, hout'.trans hout.symm⟩

end Sys2Proof.Machine
end

section
/-! The codes of the operations (30_encoding): the encoder undoes the decoder in either format, and the reserved PHASE
codes are nobody's encoding. -/

namespace Sys2Proof.Machine

/-- Only START is a command, and its CTRL value is 1 (R91). -/
theorem encode_of_decode_ctrl {v : BitVec 1} {i : Instr} (h : decode (.ctrl v) = .ok i) : encode i = .ctrl v := by
  by_cases hv : v = 1#1
  · subst hv
    cases h
    rfl
  · rw [decode, decodeCtrl, if_neg hv] at h
    cases h

theorem encode_of_decode {c : Code} {i : Instr} (h : decode c = .ok i) : encode i = c := by
  cases c with
  | phase c => exact encode_of_decode_phase h
  | ctrl v => exact encode_of_decode_ctrl h

theorem notReserved_encode (i : Instr) : (encode i).notReserved = true := by
  cases i <;> rfl

/-- The decoder rejects the codes 18 to 31 by name: no operation has such a code, and NONE is 0 (R92). -/
theorem decode_phase_of_reserved {c : BitVec 5} (h : 18 ≤ c.toNat) :
    decode (.phase c) = .error (.reservedPhase c) := by
  rcases decode_phase_cases c with ⟨i, hi⟩ | ⟨-, rfl⟩ | ⟨hr, -⟩
  · have hcode : (Code.phase c).notReserved = true := encode_of_decode hi ▸ notReserved_encode i
    have hle : c.toNat ≤ 17 := of_decide_eq_true hcode
    omega
  · exact absurd h (by decide)
  · exact hr

/-- Settles O1: each row of the table is read off the decoder, and the reserved range is no operation's code. -/
theorem codesDecodeAsTheTableSays : Obligations.CodesDecodeAsTheTableSays :=
  ⟨rfl, rfl, rfl, rfl, rfl, rfl, rfl, rfl, rfl, rfl, rfl, rfl, rfl, rfl, rfl, rfl, rfl, rfl,
    fun _ => decode_phase_of_reserved, rfl, rfl⟩

/-- Settles O2: one direction is `encode_of_decode`, the other `decode_encode` at the operation's code. -/
theorem decodeAndEncodeAgree : Obligations.DecodeAndEncodeAgree :=
  fun i _ => ⟨encode_of_decode, fun h => h ▸ decode_encode i⟩

end Sys2Proof.Machine
end

section
/-! The control micro-operations and START, each against its rule (40_control). -/

namespace Sys2Proof.Machine

/-- CHKLEN goes on to TBLGEN on a length that is a multiple of 8 (R106). -/
theorem exec_chklen_of_legal {st : State} (h : st.len.toNat % 8 = 0) :
    exec .chklen st = .next (st.setPhase Phase.tblgen) :=
  if_neg (not_not_intro ((lengthRemainder_eq_zero_iff _).2 h))

/-- CHKLEN takes PreconditionViolation on any other length (R106, R203). -/
theorem exec_chklen_of_illegal {st : State} (h : st.len.toNat % 8 ≠ 0) :
    exec .chklen st = .next st.takePreconditionViolation :=
  if_pos (mt (lengthRemainder_eq_zero_iff _).1 h)

theorem eq_wordCount_iff (w : BitVec 61) (len : BitVec 64) : w = wordCount len ↔ w.toNat = len.toNat / 8 := by
  rw [← BitVec.toNat_inj, toNat_wordCount]

theorem exec_tstw_of_none_left {st : State} (h : st.w.toNat = st.len.toNat / 8) :
    exec .tstw st = .next (st.setPhase Phase.fin) :=
  if_pos ((eq_wordCount_iff _ _).2 h)

theorem exec_tstw_of_word_left {st : State} (h : st.w.toNat ≠ st.len.toNat / 8) :
    exec .tstw st = .next (st.setPhase Phase.ldw) :=
  if_neg (mt (eq_wordCount_iff _ _).1 h)

/-- While a word remains, W is too small for the 61-bit add of INCW to wrap (R27, R111). -/
theorem toNat_add_one_of_word_left {w : BitVec 61} {len : BitVec 64} (h : w.toNat < len.toNat / 8) :
    (w + 1#61).toNat = w.toNat + 1 := by
  have hlen := len.isLt
  rw [BitVec.toNat_add]
  exact Nat.mod_eq_of_lt (by simp only [BitVec.toNat_ofNat]; omega)

/-- Settles O5: the two cases of the length check. -/
theorem chklenChecksTheLength : Obligations.ChklenChecksTheLength := by
  refine ⟨rfl, fun st => ?_⟩
  split
  · next h => exact exec_chklen_of_illegal h
  · next h => exact exec_chklen_of_legal (not_not.1 h)

/-- Settles O6: `LEN[63:3]` is LEN div 8. -/
theorem tstwDecidesWhetherAWordRemains : Obligations.TstwDecidesWhetherAWordRemains := by
  refine ⟨rfl, fun st => ?_⟩
  split
  · next h => exact exec_tstw_of_none_left h
  · next h => exact exec_tstw_of_word_left h

/-- Settles O7: the effect is INCW's own, and the add is exact below LEN div 8. -/
theorem incwMovesToTheNextWord : Obligations.IncwMovesToTheNextWord :=
  ⟨rfl, fun _ => ⟨rfl, toNat_add_one_of_word_left⟩⟩

/-- Settles O3: a unit that is not BUSY begins a call, with its operands as they are; a BUSY one does nothing. -/
theorem startBeginsACall : Obligations.StartBeginsACall := by
  refine ⟨rfl, fun st => ⟨fun hb hbase hlen => ?_, exec_start_of_busy⟩⟩
  rw [exec_start_of_not_busy hb, State.beginCall_of_set hbase hlen]
  rfl

end Sys2Proof.Machine
end

section
/-! What a move of the host or the platform changes (10_state R31 to R36, 40_control R114, 20_memory R71), and what a step
of a unit that is not BUSY can be (40_control R113). -/

namespace Sys2Proof.Machine

/-- Every move but the reset leaves the datapath, PHASE, STATUS, RESULT and the parameters alone. -/
theorem hostMove_frame {mv : HostMove} {st t : State} (hmv : mv ≠ .reset) (h : hostMove mv st = .next t) :
    t = { st with
      base := t.base, baseSet := t.baseSet, len := t.len, lenSet := t.lenSet, mem := t.mem
      hostReplies := t.hostReplies, draws := t.draws } := by
  cases mv
  case reset => exact absurd rfl hmv
  case putByte a v =>
    simp only [hostMove, hostPutByte] at h
    split at h <;> cases h
    rfl
  all_goals cases h
  case writeBase v => unfold hostWriteBase; split <;> rfl
  case writeLen v => unfold hostWriteLen; split <;> rfl
  case readResult => unfold hostReadResult; split <;> rfl
  case readBase => rw [hostReadBase, State.resolveBase_eq]; rfl
  case readLen => rw [hostReadLen, State.resolveLen_eq]; rfl
  all_goals rfl

/-- A byte put outside the buffer is no element of it (R60, R71). -/
theorem bufferByte_setMem_put {st : State} {a : Nat} (v : BitVec 8) (ha : st.inBuffer a = false) {i : Nat}
    (hi : i < st.len.toNat) : (st.setMem (Memory.put st.mem a v)).bufferByte i = st.bufferByte i := by
  have hne : st.base.toNat + i ≠ a := by
    rintro rfl
    simp [State.inBuffer, hi] at ha
  exact Memory.byteAt_put_other st.mem v hne

/-- In a call every move but the reset leaves BASE and LEN alone too, and the buffer (R36, R71). -/
theorem hostMove_frame_of_busy {mv : HostMove} {st t : State} (hi : st.Inv) (hb : st.state = .busy)
    (hmv : mv ≠ .reset) (h : hostMove mv st = .next t) :
    ∃ mem replies n, t = { st with mem := mem, hostReplies := replies, draws := n } ∧
      ∀ i, i < st.len.toNat → t.bufferByte i = st.bufferByte i := by
  obtain ⟨hbase, hlen⟩ := hi.operandsSet hb
  cases mv
  case reset => exact absurd rfl hmv
  case putByte a v =>
    simp only [hostMove, hostPutByte, hb, true_and] at h
    split at h <;> cases h
    next hout => exact ⟨_, _, _, rfl, fun i => bufferByte_setMem_put v (by simpa using hout)⟩
  all_goals cases h
  case writeBase v => rw [hostWriteBase_of_busy v hb]; exact ⟨_, _, _, rfl, fun _ _ => rfl⟩
  case writeLen v => rw [hostWriteLen_of_busy v hb]; exact ⟨_, _, _, rfl, fun _ _ => rfl⟩
  case readResult => rw [hostReadResult_of_not_done (by simp [hb])]; exact ⟨_, _, _, rfl, fun _ _ => rfl⟩
  case readBase => rw [hostReadBase_of_set hbase]; exact ⟨_, _, _, rfl, fun _ _ => rfl⟩
  case readLen => rw [hostReadLen_of_set hlen]; exact ⟨_, _, _, rfl, fun _ _ => rfl⟩
  all_goals exact ⟨_, _, _, rfl, fun _ _ => rfl⟩

/-- A unit that is not BUSY leaves its state for the host's START or the platform's reset only; every other step leaves
RESULT alone too (R107, R113). -/
theorem step_next_cases_of_not_busy {st t : State} (hb : st.state ≠ .busy) (h : step st = .next t) :
    (∃ rest, st.hostMoves = .writeCtrl 1#1 :: rest ∧ t.state = .busy) ∨
    (∃ rest, st.hostMoves = .reset :: rest ∧ t.state = .idle) ∨
    (t.state = st.state ∧ t.result = st.result) := by
  cases hm : st.hostMoves with
  | nil =>
    rw [step, fetch_nil hm, fetchUnit_wait hb] at h
    cases h
    exact .inr (.inr ⟨rfl, rfl⟩)
  | cons mv rest =>
    by_cases hp : mv = .pass
    · rw [step, fetch_pass (hp ▸ hm), fetchUnit_wait (by exact hb)] at h
      cases h
      exact .inr (.inr ⟨rfl, rfl⟩)
    by_cases hc : ∃ v, mv = .writeCtrl v
    · obtain ⟨v, rfl⟩ := hc
      rcases (by decide : ∀ v : BitVec 1, v = 1#1 ∨ v = 0#1) v with rfl | rfl
      · rw [step_of_writeCtrl_one hm, exec_start_of_not_busy (by exact hb)] at h
        cases h
        exact .inl ⟨rest, rfl, rfl⟩
      · rw [step_of_writeCtrl_zero hm] at h
        cases h
        exact .inr (.inr ⟨rfl, rfl⟩)
    rw [step_of_move hm hp fun v hv => hc ⟨v, hv⟩] at h
    by_cases hr : mv = .reset
    · subst hr
      cases h
      exact .inr (.inl ⟨rest, rfl, rfl⟩)
    · rw [hostMove_frame hr h]
      exact .inr (.inr ⟨rfl, rfl⟩)

/-- Settles O8: FIN's effect is its definition; in DONE the unit waits, and the steps of a unit that is not BUSY are the
three of `step_next_cases_of_not_busy`. -/
theorem finPublishesTheResult : Obligations.FinPublishesTheResult := by
  refine ⟨rfl, fun _ => rfl, fun st hd => fetchUnit_wait (by simp [hd]), fun st t hd h => ?_⟩
  rcases step_next_cases_of_not_busy (by simp [hd]) h with ⟨rest, hm, ht⟩ | ⟨rest, hm, ht⟩ | ⟨ht, hresult⟩
  · exact ⟨fun hdone => by simp [ht] at hdone, fun _ => ⟨rest, .inl hm⟩⟩
  · exact ⟨fun hdone => by simp [ht] at hdone, fun _ => ⟨rest, .inr hm⟩⟩
  · exact ⟨fun _ => hresult, fun hleft => absurd (ht.trans hd) hleft⟩

end Sys2Proof.Machine
end

section
/-! The control invariant (10_state R34, 30_encoding R92, 40_control R104), kept by every step. -/

namespace Sys2Proof.Machine

/-- A property is kept by every step if it does not speak of the moves to come and is kept by the micro-operation PHASE
names in BUSY, by the beginning of a call outside BUSY, and by every move of the host and the platform. -/
theorem step_keeps {P : State → Prop} (hmoves : ∀ st l, P st → P (st.setHostMoves l))
    (hexec : ∀ i st t, P st → st.state = .busy → encode i = .phase st.phase → exec i st = .next t → P t)
    (hbegin : ∀ st, P st → st.state ≠ .busy → P st.beginCall)
    (hhost : ∀ mv st t, P st → hostMove mv st = .next t → P t)
    {st t : State} (hst : P st) (h : step st = .next t) : P t := by
  have hfetch : P st.afterFetch := hmoves st _ hst
  rcases step_next_cases h with ⟨i, hb, hd, hi⟩ | hstart | ⟨mv, rest, -, hmv⟩ | rfl
  · exact hexec i _ t hfetch hb (encode_of_decode_phase hd) hi
  · by_cases hb : st.afterFetch.state = .busy
    · rw [exec_start_of_busy hb] at hstart
      cases hstart
      exact hfetch
    · rw [exec_start_of_not_busy hb] at hstart
      cases hstart
      exact hbegin _ hfetch hb
  · exact hhost mv _ t hfetch hmv
  · exact hfetch

/-- From LDW to ACCUM only the datapath changes, and PHASE goes on to the next code (R104). -/
theorem exec_frame_of_word {i : Instr} {st t : State} (hi : encode i = .phase st.phase) (hlo : 4 ≤ st.phase.toNat)
    (hhi : st.phase.toNat ≤ 15) (h : exec i st = .next t) :
    t = { st with
      x := t.x, b := t.b, idx := t.idx, m := t.m, s := t.s, acc := t.acc, phase := st.phase + 1#5 } := by
  rw [← (exec_next_code hi hlo hhi h).1]
  cases i
  case start => cases hi
  case chklen | tblgen | tstw => rw [← Code.phase.inj hi] at hlo; exact absurd hlo (by decide)
  case incw | fin => rw [← Code.phase.inj hi] at hhi; exact absurd hhi (by decide)
  case ldw =>
    rw [exec_ldw_of_readable (readable_of_exec_ldw h)] at h
    cases h
    rfl
  all_goals
    cases h
    rfl

/-- A BUSY unit may go on to any micro-operation but CHKLEN, its length being checked, and to those that work on a word
only while a word is left. -/
theorem State.Inv.setPhase {st : State} {p : BitVec 5} (hi : st.Inv) (hb : st.state = .busy) (hlegal : p.toNat ≤ 17)
    (hp : p ≠ Phase.none) (hlen : st.len.toNat % 8 = 0)
    (hleft : 4 ≤ p.toNat → p.toNat ≤ 16 → st.w.toNat < st.len.toNat / 8) : (st.setPhase p).Inv :=
  { hi with
    phaseLegal := hlegal
    busyIffPhase := iff_of_true hb hp
    lengthChecked := fun _ _ => hlen
    wordLeft := fun _ => hleft }

/-- A unit in IDLE, DONE or FAIL with the ERR that goes with it meets the control invariant. -/
theorem State.Inv.of_not_busy {st : State} (hb : st.state ≠ .busy) (hp : st.phase = Phase.none)
    (herr : st.err = if st.state = .fail then 1#4 else 0#4) : st.Inv where
  phaseLegal := by simp [hp, Phase.none]
  busyIffPhase := iff_of_false hb (not_not_intro hp)
  errInFail h := by rw [herr, if_pos h]
  errElsewhere h := by rw [herr, if_neg h]
  operandsSet h := absurd h hb
  lengthChecked h := absurd h hb
  wordBound h := absurd h hb
  wordLeft h := absurd h hb

theorem State.inv_beginCall (st : State) : st.beginCall.Inv where
  phaseLegal := (by decide : Phase.chklen.toNat ≤ 17)
  busyIffPhase := iff_of_true rfl (nofun : Phase.chklen ≠ Phase.none)
  errInFail := nofun
  errElsewhere _ := rfl
  operandsSet _ := by simp [State.beginCall, State.resolveLen_eq, State.resolveBase_eq]
  lengthChecked _ h := absurd rfl h
  wordBound _ := Nat.zero_le _
  wordLeft _ h := absurd h (by decide : ¬ 4 ≤ Phase.chklen.toNat)

theorem exec_keeps_inv {i : Instr} {st t : State} (hi : st.Inv) (hb : st.state = .busy)
    (hcode : encode i = .phase st.phase) (h : exec i st = .next t) : t.Inv := by
  by_cases hword : 4 ≤ st.phase.toNat ∧ st.phase.toNat ≤ 15
  · obtain ⟨hlo, hhi⟩ := hword
    have hlen := hi.lengthChecked hb (by rintro hc; simp [hc, Phase.chklen] at hlo)
    have hleft := hi.wordLeft hb hlo (by omega)
    rw [exec_frame_of_word hcode hlo hhi h]
    exact { hi.setPhase (p := st.phase + 1#5) hb (by bv_omega) (by unfold Phase.none; bv_omega) hlen
      (fun _ _ => hleft) with }
  cases i
  case start => cases hcode
  all_goals have hp := Code.phase.inj hcode
  case chklen =>
    by_cases hlen : st.len.toNat % 8 = 0
    · rw [exec_chklen_of_legal hlen] at h
      cases h
      exact hi.setPhase hb (by decide) (by decide) hlen (fun hlo => absurd hlo (by decide))
    · rw [exec_chklen_of_illegal hlen] at h
      cases h
      exact .of_not_busy nofun rfl rfl
  case fin =>
    cases h
    exact .of_not_busy nofun rfl (hi.errElsewhere (by simp [hb]))
  case tblgen =>
    have hlen := hi.lengthChecked hb (hp ▸ by decide)
    cases h
    exact { hi.setPhase (p := Phase.tstw) hb (by decide) (by decide) hlen (fun hlo => absurd hlo (by decide)) with }
  case tstw =>
    have hlen := hi.lengthChecked hb (hp ▸ by decide)
    by_cases hleft : st.w.toNat = st.len.toNat / 8
    · rw [exec_tstw_of_none_left hleft] at h
      cases h
      exact hi.setPhase hb (by decide) (by decide) hlen (fun _ hhi => absurd hhi (by decide))
    · rw [exec_tstw_of_word_left hleft] at h
      cases h
      exact hi.setPhase hb (by decide) (by decide) hlen (fun _ _ => lt_of_le_of_ne (hi.wordBound hb) hleft)
  case incw =>
    have hlen := hi.lengthChecked hb (hp ▸ by decide)
    have hleft := hi.wordLeft hb (hp ▸ by decide) (hp ▸ by decide)
    have hw := toNat_add_one_of_word_left hleft
    cases h
    exact { hi.setPhase (p := Phase.tstw) hb (by decide) (by decide) hlen (fun hlo => absurd hlo (by decide)) with
      wordBound := fun _ => hw.trans_le hleft
      wordLeft := fun _ hlo => absurd hlo (by decide : ¬ 4 ≤ Phase.tstw.toNat) }
  all_goals exact absurd (hp ▸ by decide) hword

theorem hostMove_keeps_inv {mv : HostMove} {st t : State} (hi : st.Inv) (h : hostMove mv st = .next t) : t.Inv := by
  by_cases hmv : mv = .reset
  · subst hmv
    cases h
    exact .of_not_busy nofun rfl rfl
  by_cases hb : st.state = .busy
  · obtain ⟨mem, replies, n, rfl, -⟩ := hostMove_frame_of_busy hi hb hmv h
    exact { hi with }
  · -- The control invariant says of BASE and LEN only what holds in BUSY.
    rw [hostMove_frame hmv h]
    exact { hi with
      operandsSet := (absurd · hb)
      lengthChecked := (absurd · hb)
      wordBound := (absurd · hb)
      wordLeft := (absurd · hb) }

theorem step_keeps_inv {st t : State} (hi : st.Inv) (h : step st = .next t) : t.Inv :=
  step_keeps (fun _ _ hi => { hi with }) (fun _ _ _ => exec_keeps_inv) (fun st _ _ => st.inv_beginCall)
    (fun _ _ _ => hostMove_keeps_inv) hi h

end Sys2Proof.Machine
end

section
/-! The call invariant (40_control R110): the loop invariant of a call, carried through the micro-operations of a word
and kept by whatever the host does meanwhile. -/

namespace Sys2Proof.Machine

/-- The progress of a unit that stands at PHASE `p`, with PHASE written out, so that the case for `p` can be read off. -/
theorem State.progress.at_phase {st : State} {p : BitVec 5} (h : st.progress) (hp : p = st.phase) :
    (st.setPhase p).progress := by
  subst hp
  exact h

/-- What the reduction makes of a word whose lanes have all gone through CM: the sum of the word's qualifying bytes
(R172, R177). -/
theorem toNat_reduction_of_lanesMasked {st : State} {w : Nat} {y : BitVec 64} (h : lanesMasked (st.bufferWord w) y) :
    (sumHalves (sumPairs (sumLanes y))).toNat = reference ((List.range 8).map fun j => st.bufferByte (8 * w + j)) := by
  rw [← toNat_reduction_of_masked_bufferWord, toNat_reduction, toNat_reduction]
  exact Finset.sum_congr rfl fun k _ => by rw [h k.val k.isLt, lane_and_tbl_indexOfWord]

/-- ACCUM's addend takes the sum over the first `n` bytes to the sum over the first `n + 8` (R176). -/
theorem State.accIs.add_word {st : State} {n : Nat} {v : BitVec 64} (h : st.accIs n)
    (hv : v.toNat = reference ((List.range 8).map fun j => st.bufferByte (n + j))) :
    (st.setAcc (st.acc + v)).accIs (n + 8) := by
  have hprefix : (st.setAcc (st.acc + v)).bufferPrefix (n + 8) = st.bufferPrefix (n + 8) := rfl
  rw [State.accIs, hprefix, State.bufferPrefix_add, reference_append, BitVec.ofNat_add, ← h, ← hv, BitVec.ofNat_toNat,
    BitVec.setWidth_eq]
  rfl

/-- Each micro-operation takes the progress at its point of the schedule to that at its successor's, if the call goes
on (R104, R110). -/
theorem exec_keeps_progress {i : Instr} {st t : State} (hinv : st.Inv) (hb : st.state = .busy) (hprog : st.progress)
    (hcode : encode i = .phase st.phase) (h : exec i st = .next t) (hbt : t.state = .busy) : t.progress := by
  cases i
  case start => cases hcode
  all_goals
    have hp := Code.phase.inj hcode
    have hat := hprog.at_phase hp
  case chklen =>
    by_cases hlen : st.len.toNat % 8 = 0
    · rw [exec_chklen_of_legal hlen] at h
      cases h
      exact hat
    · rw [exec_chklen_of_illegal hlen] at h
      cases h
      cases hbt
  case tblgen =>
    obtain ⟨hacc, hw⟩ := hat
    have hsum : st.accIs (8 * st.w.toNat) := by
      rw [State.accIs, show st.w = 0#61 from hw]
      exact hacc
    cases h
    exact ⟨tableEntry_fullTable, hsum⟩
  case tstw =>
    obtain ⟨htable, hacc⟩ := hat
    by_cases hleft : st.w.toNat = st.len.toNat / 8
    · rw [exec_tstw_of_none_left hleft] at h
      cases h
      exact ⟨htable, hacc, (eq_wordCount_iff _ _).2 hleft⟩
    · rw [exec_tstw_of_word_left hleft] at h
      cases h
      exact ⟨htable, hacc⟩
  case ldw =>
    obtain ⟨htable, hacc⟩ := hat
    rw [exec_ldw_of_readable (readable_of_exec_ldw h)] at h
    cases h
    exact ⟨htable, hacc, rfl⟩
  case sgnx =>
    obtain ⟨htable, hacc, hx⟩ := hat
    cases h
    exact ⟨htable, hacc, hx, congrArg signBits hx⟩
  case fold33 =>
    obtain ⟨htable, hacc, hx, hbits⟩ := hat
    cases h
    exact ⟨htable, hacc, hx, congrArg (foldStep · 33) hbits⟩
  case fold18 =>
    obtain ⟨htable, hacc, hx, hbits⟩ := hat
    cases h
    exact ⟨htable, hacc, hx, congrArg (foldStep · 18) hbits⟩
  case fold12 =>
    obtain ⟨htable, hacc, hx, hbits⟩ := hat
    cases h
    exact ⟨htable, hacc, hx, congrArg (fun v => (foldStep v 12).extractLsb' 0 8) hbits⟩
  case idxm =>
    obtain ⟨htable, hacc, hx, hindex⟩ := hat
    cases h
    exact ⟨htable, hacc, hx, hindex⟩
  case lut =>
    obtain ⟨htable, hacc, hx, hindex⟩ := hat
    cases h
    exact ⟨htable, hacc, hx, (congrArg (tableEntry st.table) hindex).trans (htable _)⟩
  case msk =>
    obtain ⟨htable, hacc, hx, hm⟩ := hat
    have hmasked : lanesMasked (st.bufferWord st.w.toNat) (st.x &&& st.m) := by
      intro k hk
      rw [show st.x = _ from hx, show st.m = _ from hm]
      exact lane_and_tbl_indexOfWord _ ⟨k, hk⟩
    cases h
    exact ⟨htable, hacc, hmasked⟩
  case hs8 =>
    obtain ⟨htable, hacc, hmasked⟩ := hat
    cases h
    exact ⟨htable, hacc, hmasked, rfl⟩
  case hs16 =>
    obtain ⟨htable, hacc, hmasked, hs⟩ := hat
    cases h
    exact ⟨htable, hacc, hmasked, congrArg sumPairs hs⟩
  case hs32 =>
    obtain ⟨htable, hacc, hmasked, hs⟩ := hat
    cases h
    exact ⟨htable, hacc, (congrArg (fun v => (sumHalves v).toNat) hs).trans (toNat_reduction_of_lanesMasked hmasked)⟩
  case accum =>
    obtain ⟨htable, hacc, hs⟩ := hat
    have hsum : (st.setAcc (st.acc + st.s)).accIs (8 * st.w.toNat + 8) := State.accIs.add_word hacc hs
    cases h
    exact ⟨htable, hsum⟩
  case incw =>
    obtain ⟨htable, hacc⟩ := hat
    have hw := toNat_add_one_of_word_left (hinv.wordLeft hb (hp ▸ by decide) (hp ▸ by decide))
    have hsum : st.accIs (8 * (st.w + 1#61).toNat) := by
      rw [hw]
      exact hacc
    cases h
    exact ⟨htable, hsum⟩
  case fin =>
    cases h
    cases hbt

section
variable {st u : State} (hbytes : ∀ i, i < st.len.toNat → u.bufferByte i = st.bufferByte i)
include hbytes

theorem bufferPrefix_congr {n : Nat} (hn : n ≤ st.len.toNat) : u.bufferPrefix n = st.bufferPrefix n :=
  List.map_congr_left fun i hi => hbytes i (lt_of_lt_of_le (List.mem_range.1 hi) hn)

theorem bytesOfWord_congr {n : Nat} (hn : n + 8 ≤ st.len.toNat) :
    ((List.range 8).map fun j => u.bufferByte (n + j)) = (List.range 8).map fun j => st.bufferByte (n + j) :=
  List.map_congr_left fun j hj => hbytes (n + j) (by have := List.mem_range.1 hj; omega)

theorem bufferWord_congr {w : Nat} (horder : u.byteOrder = st.byteOrder) (hw : 8 * w + 8 ≤ st.len.toNat) :
    u.bufferWord w = st.bufferWord w := by
  rw [State.bufferWord, horder, bytesOfWord_congr hbytes hw, State.bufferWord]

end

/-- What the host may change in a call, its bytes outside the buffer included, leaves the progress as it was: up to TSTW
the call has looked at the first `8 W` bytes only, and from LDW on at the eight that follow, all of them in the buffer. -/
theorem State.progress.of_same_buffer {st : State} {mem : Memory} {replies : List HostReply} {n : Nat} (hi : st.Inv)
    (hb : st.state = .busy) (h : st.progress)
    (hbytes : ∀ i, i < st.len.toNat →
      { st with mem := mem, hostReplies := replies, draws := n : State }.bufferByte i = st.bufferByte i) :
    { st with mem := mem, hostReplies := replies, draws := n : State }.progress := by
  have hbound := hi.wordBound hb
  have hprefix := bufferPrefix_congr hbytes (n := 8 * st.w.toNat) (by omega)
  by_cases hleft : st.w.toNat < st.len.toNat / 8
  · have hprefix' := bufferPrefix_congr hbytes (n := 8 * st.w.toNat + 8) (by omega)
    have hlist := bytesOfWord_congr hbytes (n := 8 * st.w.toNat) (by omega)
    have hword := bufferWord_congr hbytes (w := st.w.toNat) rfl (by omega)
    simpa only [State.progress, State.tableBuilt, State.accIs, hprefix, hprefix', hlist, hword] using h
  · have hlegal := hi.phaseLegal
    have hword := hi.wordLeft hb
    obtain hp | hp | hp | hp | hp : st.phase.toNat = 0 ∨ st.phase.toNat = 1 ∨ st.phase.toNat = 2 ∨
        st.phase.toNat = 3 ∨ st.phase.toNat = 17 := by omega
    case inl => simp only [State.progress, hp]
    all_goals simpa only [State.progress, State.tableBuilt, State.accIs, hp, hprefix] using h

theorem hostMove_keeps_callInv {mv : HostMove} {st t : State} (hc : st.CallInv) (h : hostMove mv st = .next t) :
    t.CallInv := by
  obtain ⟨hi, hprog⟩ := hc
  refine ⟨hostMove_keeps_inv hi h, fun hbt => ?_⟩
  by_cases hmv : mv = .reset
  · subst hmv
    cases h
    cases hbt
  have hb : st.state = .busy := (congrArg State.state (hostMove_frame hmv h)).symm.trans hbt
  obtain ⟨mem, replies, n, rfl, hbytes⟩ := hostMove_frame_of_busy hi hb hmv h
  exact (hprog hb).of_same_buffer hi hb hbytes

/-- Settles O45: START opens a call with nothing summed up, each micro-operation carries the progress on, and the host
cannot touch it. -/
theorem stepKeepsTheCallInvariant : Obligations.StepKeepsTheCallInvariant := fun _ _ =>
  step_keeps
    (fun _ _ ⟨hi, hprog⟩ => ⟨{ hi with }, hprog⟩)
    (fun _ _ _ ⟨hi, hprog⟩ hb hcode h =>
      ⟨exec_keeps_inv hi hb hcode h, exec_keeps_progress hi hb (hprog hb) hcode h⟩)
    (fun st _ _ => ⟨st.inv_beginCall, fun _ => ⟨rfl, rfl⟩⟩)
    (fun _ _ _ => hostMove_keeps_callInv)

end Sys2Proof.Machine
end

section
/-! The permutation P, the mask table and TBLGEN (41_table). -/

namespace Sys2Proof.Machine

theorem laneOfIndexBit_laneOfIndexBit : ∀ j : Fin 8, laneOfIndexBit (laneOfIndexBit j) = j := by
  decide

/-- P⁻¹, which the table is built with, is P itself (R121). -/
theorem indexBitOfLane_eq_laneOfIndexBit : ∀ k : Fin 8, indexBitOfLane k = laneOfIndexBit k := by
  decide

theorem indexBitOfLane_laneOfIndexBit (j : Fin 8) : indexBitOfLane (laneOfIndexBit j) = j := by
  rw [indexBitOfLane_eq_laneOfIndexBit, laneOfIndexBit_laneOfIndexBit]

/-- P⁻¹ runs through all eight index bits. -/
theorem map_indexBitOfLane_perm : ((List.finRange 8).map indexBitOfLane).Perm (List.finRange 8) := by
  decide

theorem lane_or (x y : BitVec 64) (k : Nat) : lane (x ||| y) k = lane x k ||| lane y k :=
  BitVec.extractLsb'_or

/-- A word is determined by its lanes. -/
theorem eq_of_lanes {x y : BitVec 64} (h : ∀ k : Fin 8, lane x k.val = lane y k.val) : x = y := by
  refine BitVec.eq_of_toNat_eq ?_
  rw [toNat_eq_sum_lanes, toNat_eq_sum_lanes]
  exact Finset.sum_congr rfl fun k hk => by rw [h ⟨k, Finset.mem_range.1 hk⟩]

theorem maskLane_or (i j : BitVec 8) (k : Fin 8) : maskLane (i ||| j) k = maskLane i k ||| maskLane j k := by
  simp only [maskLane, BitVec.getLsbD_or]
  cases i.getLsbD (indexBitOfLane k) <;> cases j.getLsbD (indexBitOfLane k) <;> rfl

theorem maskLane_and (i j : BitVec 8) (k : Fin 8) : maskLane (i &&& j) k = maskLane i k &&& maskLane j k := by
  simp only [maskLane, BitVec.getLsbD_and]
  cases i.getLsbD (indexBitOfLane k) <;> cases j.getLsbD (indexBitOfLane k) <;> rfl

theorem maskLane_eq_zero_or_ff (i : BitVec 8) (k : Fin 8) : maskLane i k = 0x00#8 ∨ maskLane i k = 0xFF#8 := by
  rw [maskLane]
  cases i.getLsbD (indexBitOfLane k)
  · exact .inl rfl
  · exact .inr rfl

/-- A mask lane is 0xFF just when its index bit is 1. -/
theorem maskLane_beq_ff (i : BitVec 8) (k : Fin 8) : (maskLane i k == 0xFF#8) = i.getLsbD (indexBitOfLane k) := by
  rw [maskLane]
  cases i.getLsbD (indexBitOfLane k) <;> rfl

theorem tbl_or (i j : BitVec 8) : tbl (i ||| j) = tbl i ||| tbl j :=
  eq_of_lanes fun k => by rw [lane_or, lane_tbl, lane_tbl, lane_tbl, maskLane_or]

theorem tbl_and (i j : BitVec 8) : tbl (i &&& j) = tbl i &&& tbl j :=
  eq_of_lanes fun k => by rw [lane_and, lane_tbl, lane_tbl, lane_tbl, maskLane_and]

/-- Bit `j` of the index can be read back from lane P(j) of the entry. -/
theorem lane_tbl_beq_ff (i : BitVec 8) (j : Fin 8) :
    (lane (tbl i) (laneOfIndexBit j).val == 0xFF#8) = i.getLsbD j.val := by
  rw [lane_tbl, maskLane_beq_ff, indexBitOfLane_laneOfIndexBit]

theorem tbl_injective : Function.Injective tbl := by
  intro i j h
  refine BitVec.eq_of_getLsbD_eq fun b hb => ?_
  rw [← lane_tbl_beq_ff i ⟨b, hb⟩, h, lane_tbl_beq_ff j ⟨b, hb⟩]

/-- TBL(i) has as many 0xFF lanes as `i` has ones: P⁻¹ only reorders the bits. -/
theorem countP_lane_tbl (i : BitVec 8) :
    ((List.finRange 8).countP fun k => lane (tbl i) k.val == 0xFF#8) =
      (List.finRange 8).countP fun j => i.getLsbD j.val := by
  simp only [lane_tbl, maskLane_beq_ff]
  rw [← map_indexBitOfLane_perm.countP_eq, List.countP_map]
  rfl

/-- Settles O13: (a), (c) and (d) lane by lane; the entries of (b) and (e) are computed. -/
theorem tableHasTheListedProperties : Obligations.TableHasTheListedProperties := by
  refine ⟨fun i k => ?_, ⟨rfl, rfl⟩, fun i j => ⟨tbl_or i j, tbl_and i j⟩, fun _ _ h => tbl_injective h,
    countP_lane_tbl, rfl, rfl, rfl, rfl, rfl, rfl, rfl, rfl⟩
  rw [lane_tbl]
  exact maskLane_eq_zero_or_ff i k

/-- Settles O14: the fold's index has the sign bit of lane P(j) at bit `j`, and the table puts it back into lane P(j). -/
theorem tableUndoesTheFold : Obligations.TableUndoesTheFold := fun x k => by
  rw [lane_tbl_indexOfWord, getLsbD_lane_seven]

/-- Settles O10: the table TBLGEN writes is the full one. -/
theorem tblgenBuildsTheTable : Obligations.TblgenBuildsTheTable :=
  ⟨rfl, fun _ => ⟨_, rfl, rfl, tableEntry_fullTable⟩⟩

/-- Settles O11: the list and `7 - rev3` value by value, the involution and the inverse by their lemmas. -/
theorem permutationIsTheListedInvolution : Obligations.PermutationIsTheListedInvolution :=
  ⟨rfl, by decide, laneOfIndexBit_laneOfIndexBit, indexBitOfLane_eq_laneOfIndexBit⟩

/-- Settles O12: lane P(j) is the mask of index bit P⁻¹(P(j)), which is `j`. -/
theorem tableEntriesFollowThePermutation : Obligations.TableEntriesFollowThePermutation := fun i j => by
  rw [lane_tbl, maskLane, indexBitOfLane_laneOfIndexBit]

end Sys2Proof.Machine
end

section
/-! LDW against its rule (42_load R135, R136): the word's bytes as given, and the stop where one is not readable. -/

namespace Sys2Proof.Machine

/-- Word `w` of the buffer, assembled from its eight bytes (R62). -/
theorem bufferWord_of_bytes {st : State} {w : Nat} {b : Nat → BitVec 8}
    (h : ∀ t, t < 8 → st.bufferByte (8 * w + t) = b t) :
    st.bufferWord w = assembleWord st.byteOrder ((List.range 8).map b) :=
  congrArg (assembleWord _) (List.map_congr_left fun t ht => h t (List.mem_range.1 ht))

/-- With a byte of its word not readable LDW has no next state, and the only other thing it can do is stop (R67). -/
theorem exec_ldw_of_unreadable {st : State} {t : Nat} (ht : t < 8)
    (h : st.isReadable (effectiveAddress st.base st.w + t) = false) :
    ∃ a, exec .ldw st = .fault (.unreadable a) := by
  rcases exec_next_or_unreadable .ldw st with ⟨u, hu⟩ | ⟨-, hstop⟩
  · exact absurd (readable_of_exec_ldw hu t ht) (ne_true_of_eq_false h)
  · exact hstop

/-- Settles O15: X is word W of the buffer, assembled from the given bytes; an unreadable byte stops the load. -/
theorem ldwLoadsTheWord : Obligations.LdwLoadsTheWord := by
  refine ⟨rfl, fun st b h => ?_, fun _ _ => exec_ldw_of_unreadable⟩
  have hbytes (t : Nat) (ht : t < 8) : st.bufferByte (8 * st.w.toNat + t) = b t :=
    (byteAt_effectiveAddress st t).symm.trans (h t ht).2
  rw [exec_ldw_of_readable fun t ht => (h t ht).1, bufferWord_of_bytes hbytes]
  rfl

end Sys2Proof.Machine
end

section
/-! The filter, operation by operation (43_filter R140 to R154): each is one register update and the next PHASE. -/

namespace Sys2Proof.Machine

/-- Settles O19: SGNX is the mask of R140. -/
theorem sgnxIsolatesTheSignBits : Obligations.SgnxIsolatesTheSignBits :=
  ⟨rfl, fun _ => rfl⟩

/-- Settles O20: each fold step is `foldStep` with its own shift. -/
theorem foldStepsShiftAndOr : Obligations.FoldStepsShiftAndOr :=
  ⟨⟨rfl, rfl, rfl⟩, fun _ => ⟨rfl, rfl, rfl⟩⟩

/-- Settles O21: the low byte is the remainder modulo 2^8, which is what the mask 0xFF leaves. -/
theorem idxmTakesTheIndex : Obligations.IdxmTakesTheIndex := by
  refine ⟨rfl, fun st => ⟨_, rfl, ?_⟩⟩
  rw [BitVec.toNat_and]
  exact (BitVec.extractLsb'_toNat ..).trans (Nat.and_two_pow_sub_one_eq_mod _ 8).symm

/-- Settles O22: once the table is built, the entry that LUT reads is TBL(IDX). -/
theorem lutReadsTheMask : Obligations.LutReadsTheMask :=
  ⟨rfl, fun st => ⟨rfl, fun htable => by rw [← htable]; rfl⟩⟩

/-- Settles O23: MSK is the AND of R154. -/
theorem mskZeroesTheLanes : Obligations.MskZeroesTheLanes :=
  ⟨rfl, fun _ => rfl⟩

/-- Settles O24: the mask of SGNX has its ones at the positions 7 modulo 8. -/
theorem signBitsAloneSurvive : Obligations.SignBitsAloneSurvive := fun st =>
  ⟨_, rfl, getLsbD_signBits st.x⟩

/-- Settles O26: IDXM leaves the index of the word in IDX; the eight bits are the theorem at `j` = 0 to 7. -/
theorem indexBitsAreThePermutedSignBits : Obligations.IndexBitsAreThePermutedSignBits := fun st =>
  have hbit := getLsbD_indexOfWord st.x
  ⟨_, rfl, hbit, hbit 0, hbit 1, hbit 2, hbit 3, hbit 4, hbit 5, hbit 6, hbit 7⟩

end Sys2Proof.Machine
end

section
/-! The fold is linear in the sign bits (43_filter R148): a fold step keeps OR, so it works on the constant of each lane
by itself. -/

namespace Sys2Proof.Machine

/-- The OR of one constant per lane, over the lanes of `x` whose sign bit is set (R148). -/
def orOfLanes (x : BitVec 64) (consts : List (BitVec 64)) : BitVec 64 :=
  ((List.range 8).map fun k => if x.getLsbD (8 * k + 7) then consts.getD k 0#64 else 0#64).foldr (· ||| ·) 0#64

/-- The sign bit of each lane by itself, lane 0 first: the column 'after SGNX' of R148. -/
def laneSignBits : List (BitVec 64) :=
  (List.range 8).map fun k => BitVec.twoPow 64 (8 * k + 7)

theorem foldStep_or (x y : BitVec 64) (n : Nat) : foldStep (x ||| y) n = foldStep x n ||| foldStep y n := by
  rw [foldStep, BitVec.ushiftRight_or_distrib]
  simp only [foldStep]
  ac_rfl

theorem foldStep_zero (n : Nat) : foldStep 0#64 n = 0#64 := by
  simp [foldStep]

/-- A fold step on such an OR is the OR of the fold steps on the constants. -/
theorem foldStep_of_eq_orOfLanes {b x : BitVec 64} {consts : List (BitVec 64)} (h : b = orOfLanes x consts) (n : Nat) :
    foldStep b n = orOfLanes x (consts.map (foldStep · n)) := by
  have hconst (k : Nat) : (consts.map (foldStep · n)).getD k 0#64 = foldStep (consts.getD k 0#64) n := by
    rw [← List.getD_map (f := (foldStep · n)), foldStep_zero]
  simp only [h, orOfLanes, hconst]
  induction List.range 8 with
  | nil => exact foldStep_zero n
  | cons k rest ih =>
    simp only [List.map_cons, List.foldr_cons, foldStep_or, ih, apply_ite (foldStep · n), foldStep_zero]

theorem getLsbD_orOfLanes (x : BitVec 64) (consts : List (BitVec 64)) (p : Nat) :
    (orOfLanes x consts).getLsbD p =
      (List.range 8).any fun k => x.getLsbD (8 * k + 7) && (consts.getD k 0#64).getLsbD p := by
  rw [orOfLanes]
  induction List.range 8 with
  | nil => simp
  | cons k rest ih =>
    rw [List.map_cons, List.foldr_cons, BitVec.getLsbD_or, ih, List.any_cons]
    cases x.getLsbD (8 * k + 7) <;> simp

theorem getLsbD_laneSignBits {k : Nat} (hk : k < 8) (p : Nat) :
    (laneSignBits.getD k 0#64).getLsbD p = decide (8 * k + 7 = p) := by
  rw [laneSignBits, List.getD_eq_getElem _ _ (by simpa using hk), List.getElem_map, List.getElem_range,
    BitVec.getLsbD_twoPow, decide_eq_true (by omega), Bool.true_and]

/-- After SGNX B is the OR of the sign bits of the lanes that have theirs set (R141). -/
theorem signBits_eq_orOfLanes (x : BitVec 64) : signBits x = orOfLanes x laneSignBits := by
  refine BitVec.eq_of_getLsbD_eq fun p hp => ?_
  rw [getLsbD_signBits, getLsbD_orOfLanes, Bool.eq_iff_iff, List.any_eq_true, Bool.and_eq_true, decide_eq_true_eq]
  constructor
  · rintro ⟨hbit, hmod⟩
    have hpos : 8 * (p / 8) + 7 = p := by omega
    have hlane : p / 8 < 8 := by omega
    refine ⟨p / 8, List.mem_range.2 hlane, ?_⟩
    rw [getLsbD_laneSignBits hlane, hpos, hbit, decide_eq_true rfl, Bool.true_and]
  · rintro ⟨k, hk, h⟩
    rw [getLsbD_laneSignBits (List.mem_range.1 hk), Bool.and_eq_true, decide_eq_true_eq] at h
    obtain ⟨hbit, rfl⟩ := h
    exact ⟨hbit, Nat.mul_add_mod ..⟩

/-- Settles O25: each fold step maps the column before it to its own; no two constants of a column share a bit. -/
theorem foldIsLinearInTheSignBits : Obligations.FoldIsLinearInTheSignBits := by
  have hfold33 (x : BitVec 64) := foldStep_of_eq_orOfLanes (signBits_eq_orOfLanes x) 33
  have hfold18 (x : BitVec 64) := foldStep_of_eq_orOfLanes (hfold33 x) 18
  have hfold12 (x : BitVec 64) := foldStep_of_eq_orOfLanes (hfold18 x) 12
  unfold Obligations.FoldIsLinearInTheSignBits
  simp only [List.forall_mem_cons]
  refine ⟨?_, ?_, ?_, ?_, List.forall_mem_nil _⟩
  · exact ⟨fun st => ⟨_, rfl, signBits_eq_orOfLanes st.x⟩, by decide⟩
  · exact ⟨fun st => ⟨_, rfl, hfold33 st.x⟩, by decide⟩
  · exact ⟨fun st => ⟨_, rfl, hfold18 st.x⟩, by decide⟩
  · exact ⟨fun st => ⟨_, rfl, hfold12 st.x⟩, by decide⟩

end Sys2Proof.Machine
end

section
/-! The per-byte unit in its three forms, and FILTER as eight of them side by side (43_filter R157 to R160). -/

namespace Sys2Proof.Machine

/-- The comparison with 128 is the test of the high bit (R158). -/
theorem le_toNat_iff_getLsbD_seven (v : BitVec 8) : 128 ≤ v.toNat ↔ v.getLsbD 7 = true := by
  change _ ↔ v.msb = true
  rw [BitVec.msb_eq_decide, decide_eq_true_eq]

/-- The mask of R159 is all ones where the high bit is set, else all zeros. -/
theorem ff_mul_ushiftRight_seven (v : BitVec 8) : 0xFF#8 * (v >>> 7) = if v.getLsbD 7 then 0xFF#8 else 0x00#8 := by
  revert v
  decide

theorem compareMask_eq_mul (v : BitVec 8) : compareMask v = (if 128 ≤ v.toNat then 1#8 else 0#8) * v := by
  rw [compareMask]
  split
  · exact (BitVec.one_mul v).symm
  · exact BitVec.zero_mul.symm

/-- Settles O29: the mask form is the filter's own, the multiply form is CM case by case. -/
theorem perByteFormsAgree : Obligations.PerByteFormsAgree := fun v =>
  ⟨le_toNat_iff_getLsbD_seven v, rfl, by rw [ff_mul_ushiftRight_seven, compareMask_eq_and], compareMask_eq_mul v⟩

/-- What FILTER makes of the state: the folded word in B, its index in IDX, that index's entry of TABLE in M, and X
masked with it. -/
theorem execAll_filterOps (st : State) :
    execAll filterOps st = .next { st with
      x := st.x &&& tableEntry st.table (indexOfWord st.x)
      b := foldStep (foldStep (foldStep (signBits st.x) 33) 18) 12
      idx := indexOfWord st.x
      m := tableEntry st.table (indexOfWord st.x)
      phase := Phase.hs8 } := by
  cases st
  rfl

/-- Settles O28: the mask of the word's index is, in each lane, the mask of that lane's byte. -/
theorem filterIsLanewise : Obligations.FilterIsLanewise := by
  intro st htable
  refine ⟨_, execAll_filterOps st, fun k => ?_, rfl⟩
  rw [htable, ff_mul_ushiftRight_seven]
  exact ⟨lane_and_tbl_indexOfWord st.x k, lane_tbl_indexOfWord st.x k⟩

end Sys2Proof.Machine
end

section
/-! The reduction and the accumulation against their rules (44_reduce R165 to R177), on the stages' own laws. -/

namespace Sys2Proof.Machine

/-- Settles O30: each stage is its expression of `sumLanes`, `sumPairs` or `sumHalves` and the next PHASE. -/
theorem reductionStagesShiftMaskAndAdd : Obligations.ReductionStagesShiftMaskAndAdd :=
  ⟨⟨rfl, rfl, rfl⟩, fun _ => ⟨rfl, rfl, rfl⟩⟩

/-- Settles O34: addition of 64-bit words is addition modulo 2^64. -/
theorem accumAddsModulo : Obligations.AccumAddsModulo :=
  ⟨rfl, fun st => ⟨rfl, BitVec.toNat_add st.acc st.s⟩⟩

/-- The odd lanes may be shifted down first and masked second: the mask shifts down with them (R167). -/
theorem sumLanes_eq_shift_then_mask (x : BitVec 64) :
    sumLanes x = ((x >>> 8) &&& 0x00FF00FF00FF00FF#64) + (x &&& 0x00FF00FF00FF00FF#64) := by
  rw [sumLanes, BitVec.ushiftRight_and_distrib]
  rfl

/-- Settles O31: `extract_sumLanes` for the fields; R167's form is the same word. -/
theorem hs8AddsNeighbouringLanes : Obligations.Hs8AddsNeighbouringLanes := fun st =>
  ⟨_, rfl, extract_sumLanes st.x, sumLanes_eq_shift_then_mask st.x⟩

theorem toNat_lane_le (x : BitVec 64) (k : Nat) : (lane x k).toNat ≤ 255 :=
  Nat.le_of_lt_succ (lane x k).isLt

/-- The first two stages leave in each half the sum of the four lanes of that half of X (R169). -/
theorem extract_sumPairs_sumLanes (x : BitVec 64) :
    ((sumPairs (sumLanes x)).extractLsb' 0 32).toNat =
        (lane x 0).toNat + (lane x 1).toNat + (lane x 2).toNat + (lane x 3).toNat ∧
      ((sumPairs (sumLanes x)).extractLsb' 32 32).toNat =
        (lane x 4).toNat + (lane x 5).toNat + (lane x 6).toNat + (lane x 7).toNat := by
  have hpairs := extract_sumPairs (sumLanes x)
  have hlanes := extract_sumLanes x
  constructor
  · exact (hpairs 0).trans ((congrArg₂ (· + ·) (hlanes 0) (hlanes 1)).trans (Nat.add_assoc ..).symm)
  · exact (hpairs 1).trans ((congrArg₂ (· + ·) (hlanes 2) (hlanes 3)).trans (Nat.add_assoc ..).symm)

/-- Settles O32: the second stage for every S, then on the result of the first, where four lanes make at most 4 · 255. -/
theorem hs16AddsNeighbouringFields : Obligations.Hs16AddsNeighbouringFields := by
  refine ⟨fun st => ⟨_, rfl, extract_sumPairs st.s⟩, fun st => ⟨_, rfl, ?_⟩⟩
  obtain ⟨hlow, hhigh⟩ := extract_sumPairs_sumLanes st.x
  have hle := toNat_lane_le st.x
  refine ⟨hlow, hhigh, hlow.trans_le ?_, hhigh.trans_le ?_⟩
  · linarith [hle 0, hle 1, hle 2, hle 3]
  · linarith [hle 4, hle 5, hle 6, hle 7]

theorem sum_lanes_le (x : BitVec 64) : ∑ k : Fin 8, (lane x k.val).toNat ≤ 2040 :=
  Finset.sum_le_card_nsmul Finset.univ _ 255 fun k _ => toNat_lane_le x k.val

/-- A word at most 2040, which is below 2^11, has nothing in bits 63 to 11 (R175). -/
theorem extract_high_eq_zero {s : BitVec 64} (h : s.toNat ≤ 2040) : s.extractLsb' 11 53 = 0#53 := by
  refine BitVec.eq_of_toNat_eq ?_
  rw [BitVec.extractLsb'_toNat, Nat.shiftRight_eq_zero _ _ (by omega)]
  rfl

/-- Settles O33: the three stages' exact sum, which is small enough for 11 bits. -/
theorem reductionIsExact : Obligations.ReductionIsExact := by
  intro st
  have hsum := toNat_reduction st.x
  have hle := hsum.trans_le (sum_lanes_le st.x)
  exact ⟨_, rfl, hsum.trans (Fin.sum_univ_eight _), hle, extract_high_eq_zero hle, rfl⟩

/-- Settles O35: the law of the macro WORD, with the reference sum of the word's eight bytes written out. -/
theorem wordPassAddsTheQualifyingBytes : Obligations.WordPassAddsTheQualifyingBytes := by
  intro st htable hread
  obtain ⟨t, ht, hacc, hframe⟩ := execAll_wordOps htable hread
  rw [reference, List.map_map] at hacc
  exact ⟨t, ht, hacc, hframe⟩

end Sys2Proof.Machine
end

section
/-! Whole calls against the reference (45_reference R186 to R189): what RESULT is exactly, the two calls that load nothing,
and that a call leaves all that the next one starts from. -/

namespace Sys2Proof.Machine

/-- Each element of a buffer counts for at most 255 (R185). -/
theorem reference_le (buf : List (BitVec 8)) : reference buf ≤ buf.length * 255 := by
  refine (List.sum_le_card_nsmul (buf.map fun v => (compareMask v).toNat) 255 fun n hn => ?_).trans_eq (by simp)
  obtain ⟨v, -, rfl⟩ := List.mem_map.1 hn
  exact Nat.le_of_lt_succ (compareMask v).isLt

theorem reference_bufferPrefix_le (st : State) (n : Nat) : reference (st.bufferPrefix n) ≤ n * 255 := by
  simpa [State.bufferPrefix] using reference_le (st.bufferPrefix n)

/-- Settles O48: RESULT is the sum as a 64-bit word, and below the bound the sum fits in one. -/
theorem callComputesTheReference : Obligations.CallComputesTheReference := by
  intro st h hlen hread
  obtain ⟨t, ht, hstate, herr, hphase, hresult, hmem, hbase, hlen'⟩ := steps_callSteps_of_readable h hlen hread
  have hmod : t.result.toNat = reference (st.bufferPrefix st.len.toNat) % 2 ^ 64 := by
    rw [hresult, BitVec.toNat_ofNat]
  have hexact (hbound : st.len.toNat * 255 < 2 ^ 64) : t.result.toNat = reference (st.bufferPrefix st.len.toNat) :=
    hmod.trans (Nat.mod_eq_of_lt ((reference_bufferPrefix_le st _).trans_lt hbound))
  exact ⟨t, ht, hstate, herr, hphase, hmod, hexact, hmem, hbase, hlen'⟩

/-- Settles O50: START, then the exception that CHKLEN takes. -/
theorem callOfABadLengthFails : Obligations.CallOfABadLengthFails :=
  fun _ h hlen => steps_of_bad_length h hlen 0

/-- Settles O51: an empty buffer is readable wherever it lies, and its sum is 0. -/
theorem callOfLengthZeroReturnsZero : Obligations.CallOfLengthZeroReturnsZero := by
  intro st h hzero
  have hread : st.bufferReadable := fun i hi => absurd hi (by simp [hzero])
  obtain ⟨t, ht, hstate, herr, -, hresult, hmem, -⟩ := steps_callSteps_of_readable h (by simp [hzero]) hread
  rw [State.callSteps, hzero] at ht
  rw [hzero] at hresult
  exact ⟨t, ht, hstate, herr, hresult, hmem⟩

/-- `t` differs from `st` in the datapath, PHASE, STATUS and RESULT only: the buffer, the parameters, the operands and the
host's lists are the same (R20, R66). -/
def OwnRegistersOnly (st t : State) : Prop :=
  t = { st with
    x := t.x, b := t.b, idx := t.idx, m := t.m, s := t.s, acc := t.acc, w := t.w, phase := t.phase, table := t.table
    state := t.state, err := t.err, result := t.result }

theorem OwnRegistersOnly.trans {st u t : State} (hu : OwnRegistersOnly st u) (ht : OwnRegistersOnly u t) :
    OwnRegistersOnly st t := by
  unfold OwnRegistersOnly at hu ht
  rw [hu] at ht
  exact ht

/-- What the unit leaves alone, of that which the next call starts from (R187). -/
theorem OwnRegistersOnly.same_call_inputs {st t : State} (h : OwnRegistersOnly st t) :
    t.base = st.base ∧ t.len = st.len ∧ t.mem = st.mem ∧ t.readable = st.readable ∧ t.byteOrder = st.byteOrder ∧
      t.baseSet = st.baseSet ∧ t.lenSet = st.lenSet :=
  ⟨(congrArg State.base h :), (congrArg State.len h :), (congrArg State.mem h :), (congrArg State.readable h :),
    (congrArg State.byteOrder h :), (congrArg State.baseSet h :), (congrArg State.lenSet h :)⟩

/-- A micro-operation writes the unit's own registers only. -/
theorem exec_ownRegistersOnly {i : Instr} {st t : State} (hi : i ≠ .start) (h : exec i st = .next t) :
    OwnRegistersOnly st t := by
  cases i
  case start => exact absurd rfl hi
  case chklen =>
    simp only [exec, execChklen] at h
    split at h <;> cases h <;> rfl
  case tstw =>
    simp only [exec, execTstw] at h
    split at h <;> cases h <;> rfl
  case ldw =>
    rw [exec_ldw_of_readable (readable_of_exec_ldw h)] at h
    cases h
    rfl
  all_goals
    cases h
    rfl

/-- With nothing to come from outside, a step is a micro-operation or changes nothing (R107). -/
theorem step_ownRegistersOnly {st t : State} (hm : st.hostMoves = []) (h : step st = .next t) :
    OwnRegistersOnly st t := by
  rw [step, fetch_nil hm] at h
  rcases fetchUnit_cases st with ⟨i, -, hd, hf⟩ | ⟨hf, -⟩ | ⟨-, -, hf⟩ <;> rw [hf] at h
  · have hi : i ≠ .start := by
      rintro rfl
      cases encode_of_decode_phase hd
    exact exec_ownRegistersOnly hi h
  · cases h
    rfl
  · cases h

theorem steps_ownRegistersOnly {k : Nat} {st t : State} (hm : st.hostMoves = []) (h : steps k st = .next t) :
    OwnRegistersOnly st t := by
  induction k generalizing st with
  | zero =>
    cases h
    rfl
  | succ k ih =>
    cases hs : step st with
    | next u =>
      have hu := step_ownRegistersOnly hm hs
      rw [steps_succ_of_next hs] at h
      exact hu.trans (ih ((congrArg State.hostMoves hu).trans hm) h)
    | fault f => rw [steps, hs] at h; cases h
    | refused r => rw [steps, hs] at h; cases h

/-- START and what follows it change nothing else either, but the host's move being used up. -/
theorem call_ownRegistersOnly {k : Nat} {st t : State} (h : st.aboutToStart) (ht : steps (k + 1) st = .next t) :
    OwnRegistersOnly (st.setHostMoves []) t := by
  rw [steps_succ_of_next (step_of_aboutToStart h)] at ht
  exact steps_ownRegistersOnly (st := st.started) rfl ht

/-- Settles O55: the first call leaves the operands, the buffer and the parameters as they were, so the second is a call
on the same ones with another history, which its outcome does not depend on (R38). -/
theorem callsAreIdempotent : Obligations.CallsAreIdempotent := by
  intro st h hread
  obtain ⟨t, ht, hended, -⟩ := steps_callSteps h hread
  rw [State.callSteps, Nat.add_comm 1] at ht ⊢
  obtain ⟨hbase, hlen, hmem, hreadable, horder, hbaseSet, hlenSet⟩ := (call_ownRegistersOnly h ht).same_call_inputs
  have hagain : { t with hostMoves := [.writeCtrl 1#1] : State }.aboutToStart :=
    have ⟨_, hset, hset', _⟩ := h
    ⟨hended, hbaseSet.trans hset, hlenSet.trans hset', rfl⟩
  obtain ⟨u, hu, hout⟩ := outcomeDoesNotDependOnHistory st _ _ t h hagain hbase hlen hmem hreadable horder ht
  obtain ⟨-, -, hmem', -⟩ := (call_ownRegistersOnly hagain hu).same_call_inputs
  exact ⟨t, u, ht, hu, hout, hmem'.trans hmem⟩

end Sys2Proof.Machine
end

section
/-! The platform's reset as a step (70_reset_and_hazards R220, R221). -/

namespace Sys2Proof.Machine

/-- The platform's reset is a move that every state takes (R220). -/
theorem step_of_reset {st : State} {rest : List HostMove} (h : st.hostMoves = .reset :: rest) :
    step st = .next (st.setHostMoves rest).applyReset :=
  step_of_move h nofun nofun

/-- Settles O42: the registers are those of `State.reset`, the buffer, the parameters and the host's lists those of the
state before, with the move used up. -/
theorem resetAbandonsACall : Obligations.ResetAbandonsACall :=
  fun _ _ h => ⟨_, step_of_reset h, rfl, rfl, rfl, rfl, rfl, rfl, rfl, rfl, rfl, rfl⟩

end Sys2Proof.Machine
end

section
/-! What no operation writes, START included: the buffer, the parameters and the host's lists (10_state R20, R39, 20_memory
R66); with it what every step keeps of the memory and the parameters; and the state after reset (R40). -/

namespace Sys2Proof.Machine

/-- START writes the call's registers, and BASE and LEN only where it draws a value for them (R105, 93 U12). -/
theorem State.beginCall_eq (st : State) : st.beginCall = { st with
    acc := 0#64, w := 0#61, err := 0#4, state := .busy, phase := Phase.chklen
    base := st.beginCall.base, baseSet := true, len := st.beginCall.len, lenSet := true
    draws := st.beginCall.draws } := by
  simp only [State.beginCall, State.resolveLen_eq, State.resolveBase_eq]
  rfl

/-- Every operation leaves the buffer, the parameters and the host's lists as they were (R39, R66). -/
theorem exec_keeps_host_side {i : Instr} {st t : State} (h : exec i st = .next t) :
    t.mem = st.mem ∧ t.readable = st.readable ∧ t.byteOrder = st.byteOrder ∧ t.hostMoves = st.hostMoves ∧
      t.hostReplies = st.hostReplies := by
  by_cases hi : i = .start
  · subst hi
    by_cases hb : st.state = .busy
    · rw [exec_start_of_busy hb] at h
      cases h
      exact ⟨rfl, rfl, rfl, rfl, rfl⟩
    · rw [exec_start_of_not_busy hb] at h
      cases h
      rw [st.beginCall_eq]
      exact ⟨rfl, rfl, rfl, rfl, rfl⟩
  · rw [exec_ownRegistersOnly hi h]
    exact ⟨rfl, rfl, rfl, rfl, rfl⟩

/-- Settles O36: the frame of every operation, and a micro-operation writes the unit's own registers only. -/
theorem operationsLeaveTheHostsThingsAlone : Obligations.OperationsLeaveTheHostsThingsAlone := by
  intro i st t h
  obtain ⟨hmem, hreadable, horder, hmoves, hreplies⟩ := exec_keeps_host_side h
  refine ⟨hmem, hreadable, horder, hmoves, hreplies, fun hi => ?_⟩
  rw [exec_ownRegistersOnly hi h]
  exact ⟨rfl, rfl, rfl, rfl, rfl⟩

/-- The host puts bytes at addresses of the space only, so the memory keeps its canonical form (R60). -/
theorem hostMove_keeps_wf {mv : HostMove} {st t : State} (hwf : Memory.wf st.mem = true)
    (h : hostMove mv st = .next t) : Memory.wf t.mem = true := by
  cases mv
  case putByte a v =>
    simp only [hostMove, hostPutByte] at h
    split at h <;> cases h
    exact Memory.wf_put st.mem a.toNat v a.isLt hwf
  all_goals cases h
  case writeBase v => unfold hostWriteBase; split <;> exact hwf
  case writeLen v => unfold hostWriteLen; split <;> exact hwf
  case readResult => unfold hostReadResult; split <;> exact hwf
  case readBase => rw [hostReadBase, State.resolveBase_eq]; exact hwf
  case readLen => rw [hostReadLen, State.resolveLen_eq]; exact hwf
  all_goals exact hwf

theorem hostMove_keeps_parameters {mv : HostMove} {st t : State} (h : hostMove mv st = .next t) :
    t.readable = st.readable ∧ t.byteOrder = st.byteOrder := by
  by_cases hmv : mv = .reset
  · subst hmv
    cases h
    exact ⟨rfl, rfl⟩
  · rw [hostMove_frame hmv h]
    exact ⟨rfl, rfl⟩

theorem step_keeps_wf {st t : State} (hwf : Memory.wf st.mem = true) (h : step st = .next t) :
    Memory.wf t.mem = true := by
  refine step_keeps (P := fun u => Memory.wf u.mem = true) (fun _ _ hwf => hwf) ?_ ?_
    (fun _ _ _ => hostMove_keeps_wf) hwf h
  · intro i u v hwf _ _ hexec
    rw [(exec_keeps_host_side hexec).1]
    exact hwf
  · intro u hwf hb
    rw [(exec_keeps_host_side (exec_start_of_not_busy hb)).1]
    exact hwf

/-- No step writes BYTE_ORDER or Readable (R39, R62, R209). -/
theorem step_keeps_parameters {st t : State} (h : step st = .next t) :
    t.readable = st.readable ∧ t.byteOrder = st.byteOrder := by
  refine step_keeps (P := fun u => u.readable = st.readable ∧ u.byteOrder = st.byteOrder) (fun _ _ hu => hu) ?_ ?_ ?_
    ⟨rfl, rfl⟩ h
  · rintro i u v ⟨hread, horder⟩ _ _ hexec
    obtain ⟨-, hread', horder', -⟩ := exec_keeps_host_side hexec
    exact ⟨hread'.trans hread, horder'.trans horder⟩
  · rintro u ⟨hread, horder⟩ hb
    obtain ⟨-, hread', horder', -⟩ := exec_keeps_host_side (exec_start_of_not_busy hb)
    exact ⟨hread'.trans hread, horder'.trans horder⟩
  · rintro mv u v ⟨hread, horder⟩ hmv
    obtain ⟨hread', horder'⟩ := hostMove_keeps_parameters hmv
    exact ⟨hread'.trans hread, horder'.trans horder⟩

/-- Settles O44: the control invariant, the canonical form and the parameters, each kept by every kind of step. -/
theorem stepKeepsTheControlInvariant : Obligations.StepKeepsTheControlInvariant := fun _ _ h =>
  ⟨fun hi => step_keeps_inv hi h, fun hwf => step_keeps_wf hwf h, step_keeps_parameters h⟩

/-- Settles O41: the values that `State.reset` is defined with. -/
theorem resetLeavesTheUnitIdle : Obligations.ResetLeavesTheUnitIdle :=
  ⟨rfl, rfl, rfl, rfl⟩

/-- Settles O43: the unit is IDLE with PHASE NONE and ERR 0, where the progress of a call says nothing; no byte is in
place. -/
theorem invariantsHoldAtReset : Obligations.InvariantsHoldAtReset :=
  have hinv : State.reset.Inv := .of_not_busy nofun rfl rfl
  ⟨hinv, ⟨hinv, nofun⟩, rfl⟩

end Sys2Proof.Machine
end

section
/-! The unit's turn (40_control R107), and where a step can stop (20_memory R67, R68, R71, 30_encoding R92,
60_exceptions R202). -/

namespace Sys2Proof.Machine

theorem fetchUnit_of_reserved {st : State} (hb : st.state = .busy) (h : 18 ≤ st.phase.toNat) :
    fetchUnit st = .stop (.reservedPhase st.phase) := by
  rw [fetchUnit, if_pos hb, decode_phase_of_reserved h]

/-- Settles O40: the unit's turn fetches the reserved code, which stops it. -/
theorem reservedPhaseIsStuck : Obligations.ReservedPhaseIsStuck := fun st hm hb h => by
  rw [step, fetch_nil hm, fetchUnit_of_reserved hb h]

/-- Settles O38: what is fetched is the operation PHASE names while BUSY, and nothing otherwise; `pass` is only taken off
the list. -/
theorem stepPerformsWhatPhaseNames : Obligations.StepPerformsWhatPhaseNames := by
  intro st i
  refine ⟨fun hm hb hd => ?_, fun hm hb => ?_, fun rest hm hb hd => ?_, fun rest hm hb => ?_⟩
  · rw [step, fetch_nil hm, fetchUnit_run hb hd]
  · rw [step, fetch_nil hm, fetchUnit_wait hb]
  · rw [step, fetch_pass hm, fetchUnit_run (by exact hb) (by exact hd)]
    rfl
  · rw [step, fetch_pass hm, fetchUnit_wait (by exact hb)]
    rfl

/-- What a step fetches, it finds in the unit, in a written CTRL, or in another move from outside. -/
theorem fetch_cases (st : State) :
    fetch st = fetchUnit st.afterFetch ∨ (∃ v, fetch st = fetchCtrl v st.afterFetch) ∨
      ∃ mv rest, st.hostMoves = mv :: rest ∧ fetch st = .move mv st.afterFetch := by
  cases hm : st.hostMoves with
  | nil => exact .inl (by rw [fetch_nil hm, State.afterFetch_nil hm])
  | cons mv rest =>
    have ha : st.afterFetch = st.setHostMoves rest := by rw [State.afterFetch, hm, List.tail_cons]
    rw [ha]
    by_cases hp : mv = .pass
    · exact .inl (fetch_pass (hp ▸ hm))
    by_cases hc : ∃ v, mv = .writeCtrl v
    · obtain ⟨v, rfl⟩ := hc
      exact .inr (.inl ⟨v, fetch_writeCtrl hm⟩)
    · exact .inr (.inr ⟨mv, rest, rfl, fetch_move hm hp fun v hv => hc ⟨v, hv⟩⟩)

/-- An operation goes on, or it is LDW and stops at an unreadable address of its word (R67). -/
theorem exec_next_or_ldw_fault (i : Instr) (st : State) :
    (∃ t, exec i st = .next t) ∨ (i = .ldw ∧ ∃ a, exec i st = .fault (.unreadable a) ∧ st.isReadable a = false ∧
      effectiveAddress st.base st.w ≤ a ∧ a < effectiveAddress st.base st.w + 8) := by
  rcases exec_next_or_unreadable i st with hnext | ⟨rfl, a, ha⟩
  · exact .inl hnext
  · obtain ⟨c, hc, herr⟩ := (execLdw_eq_fault_iff st _).1 ha
    obtain ⟨hlo, hhi, hread, -⟩ := (memRead_eq_error_iff _ _ _ _).1 herr
    exact .inr ⟨rfl, c, hc ▸ ha, hread, hlo, hhi⟩

/-- A move from outside goes on, or it puts a byte into the buffer of a call in progress (R71). -/
theorem hostMove_next_or_refused (mv : HostMove) (st : State) :
    (∃ t, hostMove mv st = .next t) ∨ (∃ a v, mv = .putByte a v ∧ st.state = .busy ∧ st.inBuffer a.toNat = true ∧
      hostMove mv st = .refused (.bufferWrittenDuringCall a)) := by
  cases mv
  case putByte a v =>
    by_cases h : st.state = .busy ∧ st.inBuffer a.toNat = true
    · exact .inr ⟨a, v, rfl, h.1, h.2, if_pos h⟩
    · exact .inl ⟨_, if_neg h⟩
  all_goals exact .inl ⟨_, rfl⟩

/-- Every stop there is: a reserved PHASE code, an unreadable address of the word LDW is at, and a byte put into the
buffer of a call in progress. -/
theorem step_next_or_stops (st : State) :
    (∃ t, step st = .next t) ∨
    (st.state = .busy ∧ 18 ≤ st.phase.toNat ∧ step st = .fault (.reservedPhase st.phase)) ∨
    (st.state = .busy ∧ st.phase = Phase.ldw ∧ ∃ a, step st = .fault (.unreadable a) ∧ st.isReadable a = false ∧
      effectiveAddress st.base st.w ≤ a ∧ a < effectiveAddress st.base st.w + 8) ∨
    (st.state = .busy ∧ ∃ a v rest, st.hostMoves = .putByte a v :: rest ∧ st.inBuffer a.toNat = true ∧
      step st = .refused (.bufferWrittenDuringCall a)) := by
  rcases fetch_cases st with hf | ⟨v, hf⟩ | ⟨mv, rest, hm, hf⟩ <;> rw [step, hf]
  case inl =>
    rcases fetchUnit_cases st.afterFetch with ⟨i, hb, hd, hu⟩ | ⟨hu, -⟩ | ⟨hb, hc, hu⟩ <;> rw [hu]
    · rcases exec_next_or_ldw_fault i st.afterFetch with hnext | ⟨rfl, hstop⟩
      · exact .inl hnext
      · exact .inr (.inr (.inl ⟨hb, (Code.phase.inj (encode_of_decode_phase hd)).symm, hstop⟩))
    · exact .inl ⟨_, rfl⟩
    · exact .inr (.inl ⟨hb, hc, rfl⟩)
  case inr.inl =>
    rcases (by decide : ∀ v : BitVec 1, v = 1#1 ∨ v = 0#1) v with rfl | rfl
    · rcases exec_next_or_unreadable .start st.afterFetch with hnext | ⟨hldw, -⟩
      · exact .inl hnext
      · cases hldw
    · exact .inl ⟨_, rfl⟩
  case inr.inr =>
    rcases hostMove_next_or_refused mv st.afterFetch with hnext | ⟨a, v, rfl, hb, hin, href⟩
    · exact .inl hnext
    · exact .inr (.inr (.inr ⟨hb, a, v, rest, hm, hin, href⟩))

/-- Settles O46: of the three stops the control invariant excludes the reserved code. -/
theorem stepsStopOnlyWhereTheSpecSays : Obligations.StepsStopOnlyWhereTheSpecSays := by
  intro st hi
  have hlegal := hi.phaseLegal
  rcases step_next_or_stops st with ⟨t, h⟩ | ⟨-, hc, -⟩ | ⟨hb, hp, a, h, hread, -⟩ | ⟨hb, a, v, rest, hm, hin, h⟩
  · rw [h]
    exact ⟨nofun, nofun⟩
  · omega
  · rw [h]
    exact ⟨fun f hf => ⟨hb, hp, a, (Host.Outcome.fault.inj hf).symm, hread⟩, nofun⟩
  · rw [h]
    exact ⟨nofun, fun r hr => ⟨hb, a, v, rest, hm, (Host.Outcome.refused.inj hr).symm, of_decide_eq_true hin⟩⟩

/-- Settles O47: LDW is reached only while a word is left, and that word lies in the readable buffer. -/
theorem readableCallsNeverStop : Obligations.ReadableCallsNeverStop := by
  intro st hi hread hmoves
  have hlegal := hi.phaseLegal
  rcases step_next_or_stops st with hnext | ⟨-, hc, -⟩ | ⟨hb, hp, a, -, ha, hlo, hhi⟩ | ⟨-, a, v, rest, hm, -⟩
  · exact hnext
  · omega
  · have hleft := hi.wordLeft hb (hp ▸ by decide) (hp ▸ by decide)
    unfold effectiveAddress at hlo hhi
    obtain ⟨j, rfl⟩ := Nat.exists_eq_add_of_le (show st.base.toNat ≤ a by omega)
    exact absurd (hread j (by omega)) (ne_true_of_eq_false ha)
  · rw [hmoves] at hm
    cases hm

/-- Settles O17: LDW cannot go on, so it stops, and then at an unreadable address of its word. -/
theorem unreadableWordIsStuck : Obligations.UnreadableWordIsStuck := by
  intro st t hm hb hp ht hread
  rw [step_of_busy hm hb (i := .ldw) (by rw [hp]; rfl)]
  rcases exec_next_or_ldw_fault .ldw st with ⟨u, hu⟩ | ⟨-, a, hstop, ha, hlo, hhi⟩
  · exact absurd (readable_of_exec_ldw hu t ht) (ne_true_of_eq_false hread)
  · exact ⟨a, hstop, ha, hlo, Nat.le_of_lt_succ hhi⟩

/-- Settles O18: the last address of the word is no address of the space, so it is not readable. -/
theorem addressesAreNeverWrapped : Obligations.AddressesAreNeverWrapped := fun st htop =>
  exec_ldw_of_unreadable (t := 7) (by decide)
    (Bool.eq_false_of_not_eq_true fun h => absurd (State.lt_of_isReadable h) (Nat.not_lt.2 htop))

end Sys2Proof.Machine
end

section
/-! The index and the sign pattern determine one another (43_filter R151). -/

namespace Sys2Proof.Machine

/-- The table entry of an index is itself a word with that index: lane P(j) has the sign bit that index bit `j` names. -/
theorem indexOfWord_tbl (i : BitVec 8) : indexOfWord (tbl i) = i := by
  refine BitVec.eq_of_getLsbD_eq fun j hj => ?_
  have hbit := getLsbD_indexOfWord (tbl i) ⟨j, hj⟩
  rw [← getLsbD_lane_seven, lane_tbl, maskLane, indexBitOfLane_laneOfIndexBit] at hbit
  rw [hbit]
  cases i.getLsbD j <;> rfl

/-- Lane `k`'s sign bit stands at bit P⁻¹(k) of the index (R82, R150). -/
theorem getLsbD_indexOfWord_indexBitOfLane (x : BitVec 64) (k : Fin 8) :
    (indexOfWord x).getLsbD (indexBitOfLane k).val = x.getLsbD (8 * k.val + 7) := by
  rw [getLsbD_indexOfWord, indexBitOfLane_eq_laneOfIndexBit, laneOfIndexBit_laneOfIndexBit]

/-- Settles O27: the table entries are words of every index, and the index bits are the sign bits in another order. -/
theorem everyIndexOccurs : Obligations.EveryIndexOccurs := by
  refine ⟨fun i => ⟨tbl i, indexOfWord_tbl i⟩, fun x y => ⟨fun h k => ?_, fun h => ?_⟩⟩
  · rw [← getLsbD_indexOfWord_indexBitOfLane, h, getLsbD_indexOfWord_indexBitOfLane]
  · refine BitVec.eq_of_getLsbD_eq fun j hj => ?_
    exact (getLsbD_indexOfWord x ⟨j, hj⟩).trans ((h _).trans (getLsbD_indexOfWord y ⟨j, hj⟩).symm)

end Sys2Proof.Machine
end

section
/-! A call is no shorter than its steps (40_control R109): a unit that has left BUSY stays out of it, so that BUSY one step
before the end is BUSY all the way. -/

namespace Sys2Proof.Machine

/-- A run that goes on has gone on at each of its earlier steps. -/
theorem steps_add_inv {j k : Nat} {st u : State} (h : steps (j + k) st = .next u) :
    ∃ t, steps j st = .next t ∧ steps k t = .next u := by
  induction j generalizing st with
  | zero => exact ⟨st, rfl, by rwa [Nat.zero_add] at h⟩
  | succ j ih =>
    rw [Nat.succ_add, steps] at h
    cases hs : step st with
    | next v =>
      rw [hs] at h
      rw [steps_succ_of_next hs]
      exact ih h
    | fault f => rw [hs] at h; cases h
    | refused r => rw [hs] at h; cases h

/-- A call that is BUSY at some step has been BUSY at every step since START. -/
theorem busy_of_busy_later {j k : Nat} {st u : State} (h : st.aboutToStart) (hu : steps (j + 1 + k) st = .next u)
    (hb : u.state = .busy) : ∃ t, steps (j + 1) st = .next t ∧ t.state = .busy := by
  obtain ⟨t, ht, htu⟩ := steps_add_inv hu
  refine ⟨t, ht, not_not.1 fun hleft => hleft ?_⟩
  have hmoves : t.hostMoves = [] := (congrArg State.hostMoves (call_ownRegistersOnly h ht) :)
  rw [steps_of_not_busy hmoves hleft] at htu
  cases htu
  exact hb

/-- With every word added up, TSTW goes on to FIN, the call's last step (R108). -/
theorem AtLoop.step_of_none_left {st u : State} (h : AtLoop st u (st.len.toNat / 8)) :
    step u = .next (u.setPhase Phase.fin) :=
  (step_of_busy h.noMoves h.busy (i := .tstw) (by rw [h.phase]; rfl)).trans
    (exec_tstw_of_none_left (by rw [h.word, h.len]))

/-- Settles O49: the call is BUSY at FIN, one step before its end. -/
theorem callIsBusyUntilItsEnd : Obligations.CallIsBusyUntilItsEnd := by
  intro st k h hlen hread hlo hhi
  obtain ⟨u, hu, hloop⟩ := exists_atLoop h hlen hread _ le_rfl
  have hfin : steps (3 + 14 * (st.len.toNat / 8) + 1) st = .next (u.setPhase Phase.fin) := by
    rw [steps_add_of_next hu, steps_succ_of_next hloop.step_of_none_left]
    rfl
  obtain ⟨j, rfl⟩ := Nat.exists_eq_add_of_le' hlo
  obtain ⟨n, hn⟩ := Nat.exists_eq_add_of_le (show j + 1 ≤ 3 + 14 * (st.len.toNat / 8) + 1 by omega)
  rw [hn] at hfin
  exact busy_of_busy_later h hfin hloop.busy

end Sys2Proof.Machine
end

section
/-! START with or without operands, the successors of PHASE, and each register's writers (10_state R20, 40_control R104,
R105). -/

namespace Sys2Proof.Machine

/-- START takes BASE as it is where it holds a value (R105). -/
theorem State.beginCall_base_of_set {st : State} (h : st.baseSet = true) : st.beginCall.base = st.base := by
  simp [State.beginCall, State.resolveLen_eq, State.resolveBase_of_set h]

/-- START takes LEN as it is where it holds a value (R105). -/
theorem State.beginCall_len_of_set {st : State} (h : st.lenSet = true) : st.beginCall.len = st.len := by
  simp [State.beginCall, State.resolveLen_eq, State.resolveBase_eq, h]

/-- Settles O4: START of a unit that is not BUSY begins a call, whose registers are those of `State.beginCall_eq`. -/
theorem startWithoutOperandsRuns : Obligations.StartWithoutOperandsRuns := fun st hb =>
  ⟨st.beginCall, exec_start_of_not_busy hb, st.beginCall_eq, State.beginCall_base_of_set, State.beginCall_len_of_set⟩

/-- A unit whose PHASE is NONE keeps it as long as nothing comes from outside (R104). -/
theorem step_keeps_phase_none {st t : State} (hm : st.hostMoves = []) (hp : st.phase = Phase.none)
    (h : step st = .next t) : t.phase = Phase.none := by
  rw [step, fetch_nil hm] at h
  rcases fetchUnit_cases st with ⟨i, -, hd, hf⟩ | ⟨hf, -⟩ | ⟨-, -, hf⟩ <;> rw [hf] at h
  · rw [hp] at hd
    cases hd
  · cases h
    exact hp
  · cases h

/-- Settles O9: CHKLEN and TSTW have two successors each; the others set PHASE to their one. -/
theorem scheduleNamesEachSuccessor : Obligations.ScheduleNamesEachSuccessor := by
  intro st t
  refine ⟨?chklen, ?_, ?tstw, ?ldw, ?_, ?_, ?_, ?_, ?_, ?_, ?_, ?_, ?_, ?_, ?_, ?_, ?_, ?start, step_keeps_phase_none⟩
  case' start => intro hb
  all_goals intro h
  case chklen =>
    split
    · next hlen => rw [exec_chklen_of_legal hlen] at h; cases h; rfl
    · next hlen => rw [exec_chklen_of_illegal hlen] at h; cases h; rfl
  case tstw =>
    split
    · next hw => rw [exec_tstw_of_none_left ((eq_wordCount_iff _ _).1 hw)] at h; cases h; rfl
    · next hw => rw [exec_tstw_of_word_left (mt (eq_wordCount_iff _ _).2 hw)] at h; cases h; rfl
  case ldw => rw [exec_ldw_of_readable (readable_of_exec_ldw h)] at h; cases h; rfl
  case start => rw [exec_start_of_not_busy hb] at h; cases h; rfl
  all_goals cases h; rfl

/-- Settles O37: what each operation writes is read off its next state; a register it does not write has not changed. -/
theorem registersHaveOnlyTheirWriters : Obligations.RegistersHaveOnlyTheirWriters := by
  intro i st t h
  cases i
  case chklen =>
    simp only [exec, execChklen] at h
    split at h <;> cases h <;> simp [State.takePreconditionViolation]
  case tstw =>
    simp only [exec, execTstw] at h
    split at h <;> cases h <;> simp
  case ldw =>
    rw [exec_ldw_of_readable (readable_of_exec_ldw h)] at h
    cases h
    simp
  case start =>
    by_cases hb : st.state = .busy
    · rw [exec_start_of_busy hb] at h
      cases h
      simp
    · rw [exec_start_of_not_busy hb] at h
      cases h
      rw [st.beginCall_eq]
      simp
  all_goals
    cases h
    simp

end Sys2Proof.Machine
end

section
/-! What the host's moves do, each as a whole step: BASE and LEN, RESULT, STATUS, and the bytes of the buffer (10_state
R31 to R35, 20_memory R71, 60_exceptions R205). -/

namespace Sys2Proof.Machine

/-- Outside a call the host's write of BASE takes effect (R31). -/
theorem step_of_writeBase_of_not_busy {st : State} {v : Word} {rest : List HostMove} (hb : st.state ≠ .busy)
    (h : st.hostMoves = .writeBase v :: rest) : step st = .next ((st.setHostMoves rest).setBase v) := by
  rw [step_of_move h nofun nofun, hostMove, hostWriteBase, if_neg (by exact hb)]

/-- Outside a call the host's write of LEN takes effect (R32). -/
theorem step_of_writeLen_of_not_busy {st : State} {v : Word} {rest : List HostMove} (hb : st.state ≠ .busy)
    (h : st.hostMoves = .writeLen v :: rest) : step st = .next ((st.setHostMoves rest).setLen v) := by
  rw [step_of_move h nofun nofun, hostMove, hostWriteLen, if_neg (by exact hb)]

/-- A read of BASE that holds a value returns it (R31). -/
theorem step_of_readBase_of_set {st : State} {rest : List HostMove} (h : st.hostMoves = .readBase :: rest)
    (hset : st.baseSet = true) : step st = .next ((st.setHostMoves rest).pushReply (.base st.base)) := by
  rw [step_of_move h nofun nofun, hostMove, hostReadBase_of_set (by exact hset)]
  rfl

/-- A read of LEN that holds a value returns it (R32). -/
theorem step_of_readLen_of_set {st : State} {rest : List HostMove} (h : st.hostMoves = .readLen :: rest)
    (hset : st.lenSet = true) : step st = .next ((st.setHostMoves rest).pushReply (.len st.len)) := by
  rw [step_of_move h nofun nofun, hostMove, hostReadLen_of_set (by exact hset)]
  rfl

/-- BASE without a value gets the next free one at its first use (R41). -/
theorem State.resolveBase_of_unset {st : State} (h : st.baseSet = false) :
    st.resolveBase = (st.setBase (Config.freeWord st.draws .base)).countDraw :=
  if_neg (ne_true_of_eq_false h)

/-- LEN without a value gets the next free one at its first use (R41). -/
theorem State.resolveLen_of_unset {st : State} (h : st.lenSet = false) :
    st.resolveLen = (st.setLen (Config.freeWord st.draws .len)).countDraw :=
  if_neg (ne_true_of_eq_false h)

/-- Settles O57: a register just written holds a value, which the read returns; one without a value has it drawn. -/
theorem operandsAreReadAndWritten : Obligations.OperandsAreReadAndWritten := by
  intro st v rest hb
  refine ⟨fun h => ?_, fun h => ?_, step_of_readBase_of_set, step_of_readLen_of_set, fun h hset => ?_, fun h hset => ?_⟩
  · rw [steps_succ_of_next (step_of_writeBase_of_not_busy hb h), steps_succ_of_next (step_of_readBase_of_set rfl rfl)]
    rfl
  · rw [steps_succ_of_next (step_of_writeLen_of_not_busy hb h), steps_succ_of_next (step_of_readLen_of_set rfl rfl)]
    rfl
  · refine ⟨Config.freeWord st.draws .base, ?_⟩
    rw [step_of_move h nofun nofun, hostMove, hostReadBase, State.resolveBase_of_unset (by exact hset)]
    rfl
  · refine ⟨Config.freeWord st.draws .len, ?_⟩
    rw [step_of_move h nofun nofun, hostMove, hostReadLen, State.resolveLen_of_unset (by exact hset)]
    rfl

/-- Settles O52: FAIL is not BUSY, so LEN is written and START begins a call with both operands set. -/
theorem failureIsRecoverable : Obligations.FailureIsRecoverable := by
  intro st n rest hfail hbase hm
  have hb : st.state ≠ .busy := by simp [hfail]
  have hstart : step ((st.setHostMoves (.writeCtrl 1#1 :: rest)).setLen n) =
      .next (((st.setHostMoves rest).setLen n).beginCall) := by
    rw [step_of_writeCtrl_one rfl]
    exact exec_start_of_not_busy hb
  rw [steps_succ_of_next (step_of_writeLen_of_not_busy hb hm), steps_succ_of_next hstart,
    State.beginCall_of_set (by exact hbase) rfl]
  rfl

/-- Settles O59: the read returns RESULT in DONE, and a free value otherwise. -/
theorem resultIsReadWhileDone : Obligations.ResultIsReadWhileDone := by
  intro st rest h
  refine ⟨fun hdone => ?_, fun hdone => ⟨Config.freeWord st.draws .result, ?_⟩⟩
  · rw [step_of_move h nofun nofun, hostMove, hostReadResult, if_pos (by exact hdone)]
    rfl
  · rw [step_of_move h nofun nofun, hostMove, hostReadResult_of_not_done (by exact hdone)]
    rfl

/-- STATUS has the code of STATE, the two reserved bits and ERR side by side, from bit 0 up (R34). -/
theorem State.statusByte_fields (st : State) : st.statusByte.extractLsb' 0 2 = st.state.code ∧
    st.statusByte.extractLsb' 2 2 = 0#2 ∧ st.statusByte.extractLsb' 4 4 = st.err := by
  have hfields : ∀ (e : BitVec 4) (c : BitVec 2), (e ++ 0#2 ++ c).extractLsb' 0 2 = c ∧
      (e ++ 0#2 ++ c).extractLsb' 2 2 = 0#2 ∧ (e ++ 0#2 ++ c).extractLsb' 4 4 = e := by decide
  exact hfields st.err st.state.code

/-- Settles O56: the reply is the STATUS byte, field by field. -/
theorem statusByteHasTheListedLayout : Obligations.StatusByteHasTheListedLayout := by
  intro st rest h
  obtain ⟨hcode, hreserved, herr⟩ := st.statusByte_fields
  refine ⟨st.statusByte, step_of_move h nofun nofun, ?_, hreserved, herr⟩
  rw [hcode]
  cases st.state <;> rfl

/-- Settles O60: the byte is refused in the buffer of a call in progress; elsewhere it is stored, which only that address
shows. -/
theorem hostFillsTheBufferOutsideCalls : Obligations.HostFillsTheBufferOutsideCalls := by
  intro st a v rest h
  have hstep : step st = hostPutByte a v (st.setHostMoves rest) := step_of_move h nofun nofun
  have hcall : (st.setHostMoves rest).state = .busy ∧ (st.setHostMoves rest).inBuffer a.toNat = true ↔
      st.state = .busy ∧ st.base.toNat ≤ a.toNat ∧ a.toNat < st.base.toNat + st.len.toNat :=
    and_congr_right' decide_eq_true_iff
  rw [hstep]
  refine ⟨fun hin => if_pos (hcall.2 hin), fun hout => ⟨_, if_neg (mt hcall.1 hout), rfl, ?_, fun _ => rfl, ?_⟩⟩
  · exact Memory.byteAt_put_same st.mem a.toNat v
  · exact fun c hc => Memory.byteAt_put_other st.mem v hc

end Sys2Proof.Machine
end
